-- ==== Sys2Proof/Word.lean ====
section
/-! DEFINITION. The words of the machine and their plainest arithmetic (R1, R5, R90): bytes, 32-bit
words, 64-bit pairs (low word first), and register names of seven bits. -/
namespace Sys2Proof

/-- One byte. -/
abbrev Byte := BitVec 8
/-- A 32-bit register or instruction word. -/
abbrev Word := BitVec 32
/-- A 64-bit pair, low word first (R5). -/
abbrev DWord := BitVec 64
/-- A 7-bit register field (R87, R90). -/
abbrev Name := BitVec 7

/-- The 64-bit value of a pair of words, low word first (R5). -/
def pairWord (lo hi : Word) : DWord := hi ++ lo
/-- The low word of a pair. -/
def loWord (x : DWord) : Word := x.setWidth 32
/-- The high word of a pair. -/
def hiWord (x : DWord) : Word := (x >>> 32).setWidth 32
/-- A truth value as a word. -/
def boolWord (b : Bool) : Word := if b then 1 else 0

@[simp] theorem loWord_pairWord (lo hi : Word) : loWord (pairWord lo hi) = lo := by
  apply BitVec.eq_of_getLsbD_eq
  intro i h
  rw [loWord, BitVec.getLsbD_setWidth, pairWord, BitVec.getLsbD_append]
  simp [h]

@[simp] theorem hiWord_pairWord (lo hi : Word) : hiWord (pairWord lo hi) = hi := by
  apply BitVec.eq_of_getLsbD_eq
  intro i h
  rw [hiWord, BitVec.getLsbD_setWidth, BitVec.getLsbD_ushiftRight, pairWord, BitVec.getLsbD_append]
  simp [h]

end Sys2Proof
end

