-- ==== Sys2Proof/Syntax.lean ====
section
/-! DEFINITION. The rows of the opcode table as one inductive: the 224 instruction words with their
fields as spec/04_encoding.md cuts them (reserved bits are not part of an instruction), and the 91
operations and events. The table gives an operation or event no field, so its constructor has none:
what the outside world or the hardware's own choice supplies with it is an `Input`, which stands in the
machine's state when it happens. -/
namespace Sys2Proof

/-- The two core classes (R50). -/
inductive CoreClass where
  | mcore
  | score
  deriving DecidableEq, Repr

/-- The modifiers of an atomic, its b field (R378). -/
structure AtomMod where
  spin : BitVec 2
  nr : Bool
  acq : Bool
  pub : Bool
  scope : BitVec 2
  deriving DecidableEq, Repr

/-- The 32-byte request header of R37, less its kind, with the endpoint the request arrived at and the
endpoint that sent it; `reserved` is set when a reserved byte of the header is nonzero. Endpoint 0 is the
operator's. -/
structure ReqHdr where
  ep : Nat
  src : Nat
  format : Byte
  prio : Byte
  reserved : Bool
  length : Word
  reqid : DWord
  job : DWord
  acct : Nat
  handle : Word
  deriving DecidableEq, Repr

/-- The payload of PATCH (R21): one function id and its replacement bodies. `native` carries the
replacement words of that function with entry and handler indices counted from its first word. -/
structure PatchBody where
  func : Word
  native : Option (List Word)
  entry : Word
  handler : Word
  tile : Option (List Byte)
  loop : Option (List Byte)
  scalar : Option (List Byte)
  deriving DecidableEq, Repr

/-- A peer list entry (R44). -/
structure Peer where
  addr : BitVec 128
  ep : Word
  jobid : Word
  valid : Bool
  port : Nat
  reserved : Bool
  deriving DecidableEq, Repr

/-- The KV pool parameters of R330. -/
structure KvCfg where
  pages : Nat
  pageBase : DWord
  sidecarBase : DWord
  seqs : Nat
  deriving DecidableEq, Repr

/-- The access sampler's configuration (R215). -/
structure SamplerCfg where
  base : DWord
  m : Nat
  k : Nat
  deriving DecidableEq, Repr

/-- A partition configuration (R43, with R53, R67, R73, R211, R215, R330, R439); `peerBytes` is the peer list
in the bytes of R44. -/
structure PartCfg where
  clusters : BitVec 48
  scores : BitVec 32
  ranges : List (DWord × DWord)
  accounts : List Nat
  tenantKeys : List (Nat × List Byte)
  endpoints : List Nat
  contKeys : List (List Byte)
  sigReq : Bool
  peerBytes : List Byte
  mask : Word
  yardArea : Option Nat
  ageLimit : Option Nat
  margin : Option Nat
  kv : Option KvCfg
  sampler : Option SamplerCfg
  sweepJ : Option Nat
  snapCodes : List Nat
  deriving DecidableEq, Repr

/-- An account configuration (R47, R332). -/
structure AcctCfg where
  part : Nat
  weight : Nat
  classLimit : Nat
  qbound : Nat
  tenant : Nat
  deriving DecidableEq, Repr

/-- A firmware image, which of the device's images it is, with its signature and rollback number (R33). -/
structure FwImage where
  id : Nat
  body : List Byte
  signature : List Byte
  rollback : Word
  deriving DecidableEq, Repr

/-- RMA atomics (R35). -/
inductive RmaOp where
  | add
  | band
  | bor
  | bxor
  | swap
  | cas
  deriving DecidableEq, Repr

/-- How one run of a boot step went (R29, R30): completed, failed with a reason code, or ended the
start inside it (a hang, a reset or a power loss). -/
inductive BootResult where
  | completed
  | failed (detail : BitVec 16)
  | hung
  deriving DecidableEq, Repr

/-- The links whose retrains are counted (R480). -/
inductive LinkKind where
  | die
  | ethernet
  | hbm
  deriving DecidableEq, Repr

/-- A key of the inverted table (R335). -/
structure KvKey where
  seq : Nat
  layer : Nat
  head : Nat
  block : Nat
  deriving DecidableEq, Repr

/-- The payload of a request (R37); `kind` is one of an unknown kind, and `bytes` one that is not of its kind's
form. -/
inductive Payload where
  | empty
  | container (bytes : List Byte)
  | patch (body : PatchBody)
  | record (bytes : List Byte)
  | accounts (accts : List Nat)
  | nonce (bytes : List Byte)
  | counter (handle : Word)
  | move (src dst len : DWord)
  | partcfg (part : Nat) (cfg : PartCfg)
  | acctcfg (acct : Nat) (cfg : AcctCfg)
  | image (image : FwImage)
  | kind (k : Byte)
  | bytes (bs : List Byte)
  deriving DecidableEq, Repr

/-- An RMA operation arriving from a peer (R36, R369). -/
inductive RmaReq where
  | put (data : List Byte)
  | get (len : Nat)
  | atomic (op : RmaOp) (wide : Bool) (operand compare : DWord)
  deriving DecidableEq, Repr

/-- What comes with an operation or event: the request that arrives, as the bytes of its tagged send or with its
header and payload already told apart, the unit, member, thread, command or page it concerns, or the outcomes
the outside decides (DESIGN CHOICE 47). -/
inductive Input where
  | none
  | message (ep src : Nat) (bytes : List Byte)
  | request (h : ReqHdr) (p : Payload)
  | packet (port : Nat)
  | rma (ep peer : Nat) (addr : DWord) (r : RmaReq)
  | boot (results : List BootResult)
  | image (image : FwImage)
  | id (n : Nat)
  | remote (copy : Nat) (data : Option (List Byte))
  | pool (part : Nat) (cls : CoreClass)
  | sect (sect part : Nat) (cls : CoreClass)
  | mark (part : Nat) (job : DWord) (sect : Nat)
  | gathering (crew : Nat) (pc : Word)
  | tag (part : Nat) (job : DWord) (tag : Nat)
  | page (part page : Nat)
  | key (part : Nat) (key : KvKey)
  | line (member line : Nat)
  | entry (part : Nat) (va entry : DWord)
  | link (kind : LinkKind) (index : Nat)
  | error (stack band : Nat)
  deriving DecidableEq, Repr


/-- One constructor per row of the opcode table: the instruction words and the operations and
events of the device. -/
inductive Instr where
  /-- R136: Does nothing but advance the PC. -/
  | nop
  /-- R137: Ends the thread, freeing its lane, slot and registers. -/
  | exit
  /-- R138: Advances the PC and counts the thread as newly ready in the next cycle. -/
  | yield
  /-- R142: Branches through a target table, setting the thread's join label. -/
  | bi (a b : Name)
  /-- R142: Branches through a target table, writing the return index to name 31 and setting the join label. -/
  | calli (a b : Name)
  /-- R143: Transfers to the index held in a register, name 31 by default. -/
  | ret (a : Name)
  /-- R139: Opens a pause window of the computed number of cycles. -/
  | pause (a : Name) (i : BitVec 10)
  /-- R140: Transfers when the predicate is true. -/
  | b (p : BitVec 3) (o : BitVec 23)
  /-- R140: Transfers when the predicate is false. -/
  | bn (p : BitVec 3) (o : BitVec 23)
  /-- R141: Transfers unconditionally to PC + offset. -/
  | jmp (o : BitVec 23)
  /-- R141: Writes PC + 1 to name 31 and transfers to PC + offset. -/
  | call (o : BitVec 23)
  /-- R144: Covers the next c words when the predicate is true. -/
  | guard (p : BitVec 3) (c : BitVec 5)
  /-- R144: Covers the next c words when the predicate is false. -/
  | guardn (p : BitVec 3) (c : BitVec 5)
  /-- R145: Makes a new empty crew of the given width for the member and returns its id, or 0. -/
  | crewnew (d a : Name)
  /-- R146: Moves the thread into the named crew at its lowest free lane and returns the lane. -/
  | join (d a : Name)
  /-- R147: Moves the thread into a new crew of width 1 and returns its id. -/
  | leave (d : Name)
  /-- R148: Enters the thread into a gathering with the given lane mask. -/
  | rejoin (a : Name)
  /-- R149: Returns a crew's thread count, width or held-lane mask. -/
  | crewq (d a : Name) (s : BitVec 2)
  /-- R150: Gathers like REJOIN and gives every thread the mask of gathered lanes whose predicate is true. -/
  | ballot (d a : Name) (p : BitVec 3)
  /-- R194: Gathers the crew and starts a frame loop with trip count and depth and stage configuration. -/
  | frame (a b : Name)
  /-- R195: Ends the issuing lane of its bent. -/
  | frameend
  /-- R196: Lowers the frame's trip count to end after the current iteration. -/
  | fbreak
  /-- R198: Writes one word of the thread's seed block. -/
  | gseed (s : BitVec 3) (a : Name)
  /-- R199: Reads one word of the thread's seed block. -/
  | gcollect (d : Name) (s : BitVec 3)
  /-- R200: Sets a predicate to whether a read of a girt name would not wait. -/
  | gpres (p : BitVec 3) (a : Name)
  /-- R197: Waits for stage lockstep, latches the stage region's liveness and covers or skips c words. -/
  | sguard (s : BitVec 3) (c : BitVec 5)
  /-- R156: Adds two registers modulo 2^32. -/
  | add (d a b : Name)
  /-- R156: Subtracts two registers modulo 2^32. -/
  | sub (d a b : Name)
  /-- R156: Writes the low 32 bits of the product. -/
  | mul (d a b : Name)
  /-- R156: Writes the high 32 bits of the signed product. -/
  | mulh (d a b : Name)
  /-- R156: Writes the high 32 bits of the unsigned product. -/
  | mulhu (d a b : Name)
  /-- R156: Writes the 64-bit signed product to a pair. -/
  | mulw (d a b : Name)
  /-- R157: Signed division truncating toward zero with fixed results for zero and overflow. -/
  | div (d a b : Name)
  /-- R157: Unsigned division with 0xFFFF_FFFF for a zero divisor. -/
  | divu (d a b : Name)
  /-- R157: Signed remainder taking the dividend's sign. -/
  | rem (d a b : Name)
  /-- R157: Unsigned remainder. -/
  | remu (d a b : Name)
  /-- R158: Bitwise and. -/
  | and (d a b : Name)
  /-- R158: Bitwise or. -/
  | or (d a b : Name)
  /-- R158: Bitwise exclusive or. -/
  | xor (d a b : Name)
  /-- R158: And with the complement of the second source. -/
  | andn (d a b : Name)
  /-- R158: Shifts left by the count mod 32. -/
  | shl (d a b : Name)
  /-- R158: Shifts right logically by the count mod 32. -/
  | shr (d a b : Name)
  /-- R158: Shifts right arithmetically by the count mod 32. -/
  | sra (d a b : Name)
  /-- R158: Rotates left by the count mod 32. -/
  | rol (d a b : Name)
  /-- R159: Writes the signed minimum. -/
  | min (d a b : Name)
  /-- R159: Writes the signed maximum. -/
  | max (d a b : Name)
  /-- R159: Writes the unsigned minimum. -/
  | minu (d a b : Name)
  /-- R159: Writes the unsigned maximum. -/
  | maxu (d a b : Name)
  /-- R159: Counts leading zero bits. -/
  | clz (d a : Name)
  /-- R159: Counts one bits. -/
  | popc (d a : Name)
  /-- R159: Reverses the bit order. -/
  | brev (d a : Name)
  /-- R161: Adds two pairs modulo 2^64. -/
  | add64 (d a b : Name)
  /-- R161: Subtracts two pairs modulo 2^64. -/
  | sub64 (d a b : Name)
  /-- R160: Selects the first source when the predicate is true, else the second. -/
  | sel (k : BitVec 3) (d a b : Name)
  /-- R162: Writes a predicate from a comparison of two registers. -/
  | cmp (c p : BitVec 3) (a b : Name)
  /-- R163: Adds a sign-extended immediate. -/
  | addi (d a : Name) (i : BitVec 10)
  /-- R163: Ands with a sign-extended immediate. -/
  | andi (d a : Name) (i : BitVec 10)
  /-- R163: Ors with a sign-extended immediate. -/
  | ori (d a : Name) (i : BitVec 10)
  /-- R163: Exclusive-ors with a sign-extended immediate. -/
  | xori (d a : Name) (i : BitVec 10)
  /-- R163: Shifts left by an immediate count. -/
  | shli (d a : Name) (n : BitVec 5)
  /-- R163: Shifts right logically by an immediate count. -/
  | shri (d a : Name) (n : BitVec 5)
  /-- R163: Shifts right arithmetically by an immediate count. -/
  | srai (d a : Name) (n : BitVec 5)
  /-- R163: Multiplies by a sign-extended immediate. -/
  | muli (d a : Name) (i : BitVec 10)
  /-- R164: Loads a sign-extended 19-bit constant. -/
  | li (d : Name) (i : BitVec 19)
  /-- R164: Sets bits 31:13 from a 19-bit constant keeping bits 12:0. -/
  | lih (d : Name) (i : BitVec 19)
  /-- R165: Writes a predicate from a comparison with a sign-extended immediate. -/
  | cmpi (c p : BitVec 3) (a : Name) (i : BitVec 10)
  /-- R167: Ands two predicates. -/
  | pand (d a b : BitVec 3)
  /-- R167: Ors two predicates. -/
  | por (d a b : BitVec 3)
  /-- R167: Exclusive-ors two predicates. -/
  | pxor (d a b : BitVec 3)
  /-- R167: Negates a predicate. -/
  | pnot (d a : BitVec 3)
  /-- R168: Writes all predicates into a register. -/
  | pget (d : Name)
  /-- R168: Sets predicates p1–p7 from a register. -/
  | pset (a : Name)
  /-- R169: Sets the thread's window base, trapping above maxwb or in a bent. -/
  | wbase (a : Name)
  /-- R171: Returns the window description. -/
  | wbaseq (d : Name)
  /-- R172: Reads a special register. -/
  | mfs (d : Name) (s : BitVec 7)
  /-- R172: Writes a writable special register. -/
  | mts (s : BitVec 7) (b : Name)
  /-- R222: Loads a zero-extended byte. -/
  | ldB (d b : Name) (o : BitVec 10)
  /-- R222: Loads a sign-extended byte. -/
  | ldBs (d b : Name) (o : BitVec 10)
  /-- R222: Loads a zero-extended halfword. -/
  | ldH (d b : Name) (o : BitVec 10)
  /-- R222: Loads a sign-extended halfword. -/
  | ldHs (d b : Name) (o : BitVec 10)
  /-- R222: Loads a word. -/
  | ldW (d b : Name) (o : BitVec 10)
  /-- R222: Loads a doubleword into a pair. -/
  | ldD (d b : Name) (o : BitVec 10)
  /-- R222: Loads 16 bytes into four names. -/
  | ldQ (d b : Name) (o : BitVec 10)
  /-- R225: Prefetches a line into caches or starts a map fill, never trapping on the address. -/
  | prfm (h : BitVec 2) (b : Name) (o : BitVec 10)
  /-- R222: Stores a byte. -/
  | stB (d b : Name) (o : BitVec 10)
  /-- R222: Stores a halfword. -/
  | stH (d b : Name) (o : BitVec 10)
  /-- R222: Stores a word. -/
  | stW (d b : Name) (o : BitVec 10)
  /-- R222: Stores a pair. -/
  | stD (d b : Name) (o : BitVec 10)
  /-- R222: Stores four names as 16 bytes. -/
  | stQ (d b : Name) (o : BitVec 10)
  /-- R223: Indexed load of a zero-extended byte. -/
  | ldxB (d a b : Name)
  /-- R223: Indexed load of a sign-extended byte. -/
  | ldxBs (d a b : Name)
  /-- R223: Indexed load of a zero-extended halfword. -/
  | ldxH (d a b : Name)
  /-- R223: Indexed load of a sign-extended halfword. -/
  | ldxHs (d a b : Name)
  /-- R223: Indexed load of a word. -/
  | ldxW (d a b : Name)
  /-- R223: Indexed load of a doubleword. -/
  | ldxD (d a b : Name)
  /-- R223: Indexed load of 16 bytes. -/
  | ldxQ (d a b : Name)
  /-- R223: Indexed store of a byte. -/
  | stxB (d a b : Name)
  /-- R223: Indexed store of a halfword. -/
  | stxH (d a b : Name)
  /-- R223: Indexed store of a word. -/
  | stxW (d a b : Name)
  /-- R223: Indexed store of a doubleword. -/
  | stxD (d a b : Name)
  /-- R223: Indexed store of 16 bytes. -/
  | stxQ (d a b : Name)
  /-- R226: Classifies a generic address without accessing it. -/
  | aptest (d a : Name)
  /-- R227: Converts a generic address to its offset. -/
  | apcvtOff (d a : Name)
  /-- R227: Converts a local offset to a local aperture address. -/
  | apcvtLoc (d a : Name)
  /-- R227: Converts a local address to the cluster aperture address of this core. -/
  | apcvtClu (d a : Name)
  /-- R228: Binds scratchpad units to a global range as a mapped region with every line Invalid. -/
  | mapset (d a b : Name)
  /-- R229: Waits for inbound transfers, writes back and unbinds a mapped region. -/
  | maprel (a : Name)
  /-- R230: Writes back a mapped region's dirty sectors and waits until performed. -/
  | mapflush (a : Name)
  /-- R231: Starts fills of the Invalid lines of a range of a mapped region. -/
  | mapfill (a b : Name)
  /-- R224: Deprecated microcoded copy of one word between two addresses. -/
  | mmovW (a b : Name)
  /-- R224: Deprecated microcoded non-atomic swap of two words. -/
  | mswpW (a b : Name)
  /-- R379: Atomically adds to a word at its home and returns the old value. -/
  | aadd (d a : Name) (m : AtomMod)
  /-- R379: Atomic signed minimum. -/
  | amin (d a : Name) (m : AtomMod)
  /-- R379: Atomic signed maximum. -/
  | amax (d a : Name) (m : AtomMod)
  /-- R379: Atomic and. -/
  | aand (d a : Name) (m : AtomMod)
  /-- R379: Atomic or. -/
  | aor (d a : Name) (m : AtomMod)
  /-- R379: Atomic exclusive or. -/
  | axor (d a : Name) (m : AtomMod)
  /-- R379: Atomic exchange. -/
  | axchg (d a : Name) (m : AtomMod)
  /-- R379: Atomic 32-bit compare-and-swap with an optional spin pause on failure. -/
  | acas (d a : Name) (m : AtomMod)
  /-- R379: Atomic 64-bit compare-and-swap with an optional spin pause on failure. -/
  | acas64 (d a : Name) (m : AtomMod)
  /-- R379: Atomic FP32 add rounded to nearest even. -/
  | afadd (d a : Name) (m : AtomMod)
  /-- R379: Atomic FP32 maximum. -/
  | afmax (d a : Name) (m : AtomMod)
  /-- R375: Gathers the crew for a phase boundary. -/
  | phase
  /-- R376: Orders the thread's path x accesses before its path y accesses. -/
  | fence (x y : BitVec 3)
  /-- R384: Crew arrives at a tag barrier and waits for the generation. -/
  | tbar (t : BitVec 3) (b : Name)
  /-- R384: Crew publishes, arrives at a tag barrier and waits with a view start. -/
  | tbarP (t : BitVec 3) (b : Name)
  /-- R384: Crew arrives at a tag barrier and returns the generation without waiting. -/
  | tbara (d : Name) (t : BitVec 3) (b : Name)
  /-- R384: Crew publishes and arrives at a tag barrier, returning the generation. -/
  | tbaraP (d : Name) (t : BitVec 3) (b : Name)
  /-- R384: Thread waits until a tag barrier generation has released. -/
  | tbarw (t : BitVec 3) (b : Name)
  /-- R384: Thread waits for a generation's release, which is a view start. -/
  | tbarwP (t : BitVec 3) (b : Name)
  /-- R386: Arms a monitor on a word and returns the word read. -/
  | monitor (d a : Name)
  /-- R387: Reports a monitor hit or opens a pause window closing early on a hit. -/
  | mwaitm (d a : Name)
  /-- R256: Floating add rounded once under the encoded mode. -/
  | fadd (f m : BitVec 2) (d a b : Name)
  /-- R256: Floating subtract rounded once. -/
  | fsub (f m : BitVec 2) (d a b : Name)
  /-- R256: Floating multiply rounded once. -/
  | fmul (f m : BitVec 2) (d a b : Name)
  /-- R256: Fused multiply-add into the destination with one rounding. -/
  | ffma (f m : BitVec 2) (d a b : Name)
  /-- R258: Floating minimum with −0 below +0. -/
  | fmin (f : BitVec 2) (d a b : Name)
  /-- R258: Floating maximum with −0 below +0. -/
  | fmax (f : BitVec 2) (d a b : Name)
  /-- R258: Inverts each element's sign bit. -/
  | fneg (f : BitVec 2) (d a : Name)
  /-- R258: Clears each element's sign bit. -/
  | fabs (f : BitVec 2) (d a : Name)
  /-- R259: Correctly rounded FP32 reciprocal. -/
  | frcp (d a : Name)
  /-- R259: Correctly rounded FP32 reciprocal square root. -/
  | frsq (d a : Name)
  /-- R260: FP32 base-2 exponential within 2 ulp. -/
  | fexp2 (d a : Name)
  /-- R260: FP32 base-2 logarithm within 2 ulp. -/
  | flog2 (d a : Name)
  /-- R261: Writes a predicate from an FP32 comparison. -/
  | fcmp (c p : BitVec 3) (a b : Name)
  /-- R264: Converts between formats under the encoded mode with non-saturating overflow. -/
  | cvt (m : BitVec 2) (d a : Name) (k : BitVec 4) (j : BitVec 3)
  /-- R264: Converts with the saturating overflow outcome for narrow floating targets. -/
  | cvts (m : BitVec 2) (d a : Name) (k : BitVec 4) (j : BitVec 3)
  /-- R264: Converts rounding toward zero. -/
  | cvtt (d a : Name) (k : BitVec 4) (j : BitVec 3)
  /-- R265: Computes an E3M5 block scale by rounding up into byte j. -/
  | bscale (j : BitVec 2) (d a b : Name)
  /-- R267: Saturating packed INT16 add. -/
  | padd16s (d a b : Name)
  /-- R267: Saturating packed INT16 subtract. -/
  | psub16s (d a b : Name)
  /-- R267: Saturating packed Q15 multiply. -/
  | pmul16 (d a b : Name)
  /-- R267: Packed INT16 maximum. -/
  | pmax16 (d a b : Name)
  /-- R267: Packed INT16 minimum. -/
  | pmin16 (d a b : Name)
  /-- R267: Saturating INT32 accumulate of two INT16 products. -/
  | pmac16 (d a b : Name)
  /-- R267: Rounding shift right saturated to INT16. -/
  | shrrsS16 (d a b : Name)
  /-- R267: Rounding shift right saturated to INT8. -/
  | shrrsS8 (d a b : Name)
  /-- R267: Rounding shift right saturated to unsigned 8 bits. -/
  | shrrsN8 (d a b : Name)
  /-- R268: Reads the %sat flag. -/
  | satrd (d : Name)
  /-- R268: Clears the %sat flag. -/
  | satcl
  /-- R271: Joint issue reading another lane's register by source lane index. -/
  | shfl (d a b : Name)
  /-- R271: Joint-issue tree reduction over the lane set, identical in every lane. -/
  | xred (o : BitVec 3) (d a : Name)
  /-- R271: Joint-issue inclusive prefix over the lane set. -/
  | xscan (o : BitVec 3) (d a : Name)
  /-- R271: Joint issue taking the register of lane l + k, with boundary fill. -/
  | slideDn (k : BitVec 4) (d a b : Name)
  /-- R271: Joint issue taking the register of lane l − k, with boundary fill. -/
  | slideUp (k : BitVec 4) (d a b : Name)
  /-- R286: Writes a tile's two control words at issue after its checks. -/
  | mcfg (d : BitVec 5) (a b : Name)
  /-- R286: Reads a tile's two control words. -/
  | mrdc (d : Name) (a : BitVec 5)
  /-- R287: Checks and queues a tile load from local scratchpad. -/
  | mld (d : BitVec 5) (a b : Name)
  /-- R287: Checks and queues a tile store to local scratchpad. -/
  | mst (d : BitVec 5) (a b : Name)
  /-- R288: Tries to make the crew the array owner and returns 1 or 0. -/
  | macq (d : Name)
  /-- R289: Ends the crew's array ownership. -/
  | mrel
  /-- R291: Checks tiles A and B and queues a matrix multiply into the cells. -/
  | mma (a b : BitVec 5)
  /-- R290: Queues zeroing of every cell. -/
  | mzero
  /-- R292: Queues moving the cells into an accumulator slot. -/
  | shiftout (d : BitVec 6)
  /-- R292: Queues loading the cells from an accumulator slot. -/
  | shiftin (d : BitVec 6)
  /-- R292: Queues clearing an accumulator slot. -/
  | accclr (d : BitVec 6)
  /-- R294: Checks and queues a drain of cells to BF16. -/
  | drainqBf16 (d a b : Name)
  /-- R294: Checks and queues a saturating drain of cells to E4M3. -/
  | drainqE4m3 (d a b : Name)
  /-- R294: Checks and queues a saturating drain of cells to E5M2. -/
  | drainqE5m2 (d a b : Name)
  /-- R295: Checks and queues a drain of cells to block-scaled FP4. -/
  | drainqE2m1 (d a b : Name)
  /-- R319: Checks a rectangle copy and takes a crew queue entry for it. -/
  | cpy (d a b : Name)
  /-- R320: Checks a multicast copy to cluster scratchpads and queues it. -/
  | cpym (d a b : Name)
  /-- R321: Queues moving an accumulator slot to local scratchpad. -/
  | cpyaOut (d : BitVec 6) (a b : Name)
  /-- R321: Queues moving local scratchpad into an accumulator slot. -/
  | cpyaIn (d : BitVec 6) (a b : Name)
  /-- R322: Queues writing a local rectangle to a peer device by RMA puts. -/
  | cpynPut (d a b : Name)
  /-- R322: Queues reading a peer's rectangle by RMA gets. -/
  | cpynGet (d a b : Name)
  /-- R323: Initialises an arrival barrier with an expected count. -/
  | binit (a b : Name)
  /-- R323: Adds to a barrier's expected count and runs the flip rule. -/
  | bexp (a b : Name)
  /-- R323: Arrives at a barrier with a byte count after the thread's writes are performed. -/
  | barr (a b : Name)
  /-- R324: Waits until a barrier's phase differs from the parity and returns its status. -/
  | bwait (d a b : Name)
  /-- R324: Sets a predicate from a barrier's phase against the parity. -/
  | btest (d : BitVec 3) (a b : Name)
  /-- R325: Advances the static schedule's stage counter. -/
  | stadv (d a : Name)
  /-- R326: Claims a Free slot of a thread-produced ring and returns its offset. -/
  | ringpushClaim (d : Name) (a : BitVec 4)
  /-- R326: Commits a Claimed slot of a ring. -/
  | ringpushFill (a : BitVec 4) (b : Name)
  /-- R326: Takes a Filled slot of a thread-consumed ring and returns its offset. -/
  | ringpopTake (d : Name) (a : BitVec 4)
  /-- R326: Releases a Held ring slot. -/
  | ringpopFree (a : BitVec 4) (b : Name)
  /-- R327: Returns a ring's slot counts, configuration, remaining tiles or base. -/
  | ringq (d : Name) (a : BitVec 4) (s : BitVec 2)
  /-- R328: Configures or unconfigures a ring with thread or copy-engine producer. -/
  | ringsub (d a : Name)
  /-- R328: Configures a ring fed by an infeed subscription. -/
  | ringsubIn (d a : Name)
  /-- R328: Configures a ring drained by an outfeed subscription. -/
  | ringsubOut (d a : Name)
  /-- R389: Makes a new crew of the given width at an entry, or returns a refusal. -/
  | spawn (d a b : Name)
  /-- R390: Reads an args block and sends a request posting members from a template. -/
  | yput (d a b : Name)
  /-- R391: Creates a joint counter in the core's section and returns its handle. -/
  | jnew (d a : Name)
  /-- R392: Publishes and sends a decrement to a joint counter, returning the new value. -/
  | jdec (d a b : Name)
  /-- R393: Cancels a job in all four sections and returns the members cancelled. -/
  | ycancel (d a : Name)
  /-- R344: Looks a key up in the inverted table and returns page and info. -/
  | kvlook (d a : Name)
  /-- R344: Publishes and allocates or extends a key's page, creating the sequence if needed. -/
  | kvalloc (d a : Name)
  /-- R344: Releases one block's page or a whole sequence. -/
  | kvfree (d a : Name)
  /-- R344: Makes a child sequence share a parent's prefix blocks. -/
  | kvshare (d a b : Name)
  /-- R349: Checks and queues loading a sieve query slot. -/
  | skset (a : BitVec 2) (b : Name)
  /-- R350: Checks and queues sieving a page list against a query slot. -/
  | sieve (a : BitVec 2) (b : Name)
  /-- R351: Lists the surviving sub-blocks of a bitmap as words. -/
  | svlist (d b : Name)
  /-- R403: Opens a dry-fit window on a sequence. -/
  | dfopen (d a : Name)
  /-- R404: Attaches a recurrent-state region to the open window. -/
  | dfmark (d a : Name)
  /-- R405: Crew-collectively publishes and keeps k drafts, promoting state and discarding the rest. -/
  | dfkeep (d a : Name)
  /-- R407: Drops an open window, freeing its provisional entries. -/
  | dfdrop (d a : Name)
  /-- R408: Returns a sequence's dfwin and window state. -/
  | dfq (d a : Name)
  /-- R443: Raises a software trap cause 448–511. -/
  | trap (a : Name) (c : BitVec 6)
  /-- R445: Reopens recorded runs, clears busy and returns from the handler. -/
  | rett (a : Name)
  /-- R446: Reads a trap-state register. -/
  | mfx (d : Name) (a : BitVec 3)
  /-- R446: Writes a trap-state register, trapping 0x181 on an invalid value. -/
  | mtx (a : BitVec 3) (b : Name)
  /-- R447: Triggers a snapshot and returns whether it was sent. -/
  | snap (d a : Name)
  /-- R444: Raises cause 0x180 with its code. -/
  | bkpt (b : Name)
  /-- R448: Copies the latched progress record into eight names. -/
  | fltq (d : Name)
  /-- R15: Nymesque checks a Mladong container in the fixed order, translates it, and either creates code version 1 or fails whole with a load status. -/
  | load
  /-- R21: Nymesque copies the current version, replaces one function, re-runs the body choice and seals the result as the new current version, or fails with 0x06 or 0x04. -/
  | patch
  /-- R23: Nymesque unloads a container, or refuses with status 0x10 and the count of remaining references while any version is referenced. -/
  | unload
  /-- R481: A launch record taken from the container's request queue is checked in order, bound to a code version and placed in its account's fair-share queue, or refused. -/
  | launch
  /-- R42: Nymesque marks a job cancelled, answers its queued launches with 0x0A and passes the cancel to the four yard sections. -/
  | cancel
  /-- R478: Nymesque reads the named accounts' counters, writes them and the next report sequence number to flash, and returns a signed usage report. -/
  | usage
  /-- R34: Nymesque returns the nonce, firmware measurements, journal digest, lowered capabilities, configuration digest and report sequence, signed under the device identity key. -/
  | attest
  /-- R37: Nymesque returns a job's state, underflow log and snapshots, or the device capabilities and lifetime counters for job 0. -/
  | status
  /-- R41: A network request decrements one joint counter of the partition by one, answering 0x0F at zero and 0x0B for a stale handle. -/
  | jsig
  /-- R482: Nymesque copies bytes between two shared extents of the requester's partition, or refuses with 0x05 when either lies outside its ranges. -/
  | move
  /-- R45: The operator endpoint sets a partition's configuration, applied at once when it only adds resources or changes mask or keys, and refused while removed resources are in use. -/
  | partcfg
  /-- R47: The operator endpoint sets accounts' partition, weight, class limit, queue bound and tenant number. -/
  | acctcfg
  /-- R33: The operator endpoint writes a signed firmware image to the inactive flash slot with the next write sequence. -/
  | fwupd
  /-- R37: A request of an unassigned kind is refused with status 0x09. -/
  | unknownRequest
  /-- R35: A packet requesting an unsupported Ultra Ethernet mode, or addressed to an endpoint no partition owns, is dropped and counted as a protocol error. -/
  | droppedPacket
  /-- R369: An RMA put arriving from a peer is checked against the partition's ranges and performed at its home before it is acknowledged. -/
  | rmaPut
  /-- R36: An RMA get arriving from a peer reads partition memory, or completes with an access error outside the partition's ranges. -/
  | rmaGet
  /-- R369: An RMA atomic arriving from a peer is performed at its home as a device-scope publishing atomic, or completes with an access error. -/
  | rmaAtomic
  /-- R28: On power-on or reset the sill complex runs the twelve boot steps in order, choosing normal, alternate or skipped procedures from the previous start's journal. -/
  | boot
  /-- R32: In recovery the board controller reads the boot journal over I3C. -/
  | i3cJournalRead
  /-- R32: In recovery the board controller writes a signed firmware image to the inactive slot over I3C. -/
  | i3cFirmwareWrite
  /-- R32: In recovery the board controller orders a reset over I3C. -/
  | i3cReset
  /-- R65: The yard reports room to Nymesque for a partition and core class whose Ready and Parked entries number fewer than its cores of that class. -/
  | roomReport
  /-- R47: Every 2^20 cycles each account's usage figure decays and adds its charge, deficits are recomputed and resident byte-intervals are charged. -/
  | usageInterval
  /-- R77: Every 4,096 cycles each section advertises its largest free core per partition and core class to the other three. -/
  | sectionAdvertise
  /-- R78: An entry first in dispatch order for 8,192 cycles without fitting is marked Moving and sent, with up to 15 others, to a section advertising a fitting core. -/
  | migrationSend
  /-- R78: A receiving section accepts a moved entry into its dispatch order with its skip count kept, or refuses it, and replies. -/
  | migrationReceive
  /-- R78: The sending section deletes an accepted entry or restores a refused one to its former position. -/
  | migrationReply
  /-- R60: A decrement arriving at a counter's owning section is applied indivisibly, firing the counter and readying its gated members when it reaches zero, or logged as an underflow. -/
  | jointDecrement
  /-- R62: A member posted onto a counter registers at its owning section and joins the gated list, or passes to Ready at once when the value is zero. -/
  | memberRegister
  /-- R390: The yard posts the members of a YPUT in one step, or refuses with a status, and sends the reply. -/
  | yputRequest
  /-- R79: A section applies a job's cancel mark in one indivisible step, cancelling its held entries and refusing later work of the job. -/
  | cancelMark
  /-- R81: A Running member of a cancelled job stops at each thread's next issue slot with nothing saved, and a Suspended one is discarded where it stands. -/
  | memberCancelStop
  /-- R66: A section gives the next fitting entry to the fitting core with the fewest allotted slots, which allocates resources, places images, fills args and starts the first crew. -/
  | dispatch
  /-- R71: A Parked phase record is dispatched to a fitting core, restoring lanes, carried names, predicates and window base and resuming at its PC. -/
  | redispatch
  /-- R74: An outranking entry that has waited 65,536 cycles first in dispatch order causes its section to choose a victim on its die and pre-empt it. -/
  | preempt
  /-- R428: Once every thread of a pre-empted member has stopped at an instruction boundary, the member's state and shadow image are saved and its regions start Diverting. -/
  | memberStop
  /-- R437: A Suspended member's resume is dispatched on its own core, which refits resources and restores its saved state. -/
  | resume
  /-- R438: A Restoring region's image is copied back, its held arrivals applied in per-source order, and it becomes Direct, threads restarting once every region is Direct. -/
  | regionRestore
  /-- R76: A member whose issue cycles exceed runlimit × 2^20 is stopped at its next issue slot with end status run limit. -/
  | runLimit
  /-- R128: A gathering whose named lanes are all settled releases all its threads in one cycle at PC + 1. -/
  | gatheringRelease
  /-- R375: After a PHASE gathering releases and the crew's writes and commands are complete, the boundary orders the crew's accesses and the yard continues it in place or parks it. -/
  | phaseBoundary
  /-- R129: A thread held at its join label for 64 cycles is released and its join label cleared. -/
  | joinHoldTimeout
  /-- R126: A thread's pause window closes when its cycle count expires, restoring normal issue priority. -/
  | pauseWindowClose
  /-- R82: After 32 consecutive cycles with no ready thread and no dispatch in progress a core gates its issue and fetch clocks. -/
  | coreClockGate
  /-- R83: A waking event starts a gated core's wake. -/
  | coreWake
  /-- R83: 144 cycles after the waking event the core's wake ends, first issue follows and the wake latency is recorded. -/
  | wakeEnd
  /-- R383: 64 or 160 cycles after a generation's last arrival every waiter on it is released. -/
  | tagBarrierRelease
  /-- R181: The frame controller creates the next bent when its predecessor exists, fewer than D bents are live and k ≤ N + S − 2. -/
  | bentCreate
  /-- R187: A bent whose lanes have ended, whose predecessor has retired and whose girt results have landed retires, passing unwritten slots through and ORing %sat into the frame crew. -/
  | bentRetire
  /-- R419: A queued asynchronous cause is taken at the thread's first issue slot with busy clear, entering its handler. -/
  | asyncTrapTake
  /-- R213: Nymesque services a page fault by installing a page and releasing the parked sub-group to re-execute, or releases each thread with cause 0x085. -/
  | pageFaultService
  /-- R436: A load, atomic, KV, dry-fit or yard reply lands in the register its destination named at issue, or in the saved register or ring while the member is away. -/
  | replyLand
  /-- R301: A copy command held back for a ring slot, a fence or earlier matrix commands starts executing and reads its source. -/
  | copyStart
  /-- R300: A copy command or schedule entry whose bytes are all performed makes its arrivals, sends its counter decrements and frees its queue entry. -/
  | copyComplete
  /-- R316: A copy command or schedule entry meeting a memory failure ends, arrives with its full count and error set, writes its progress record and delivers an asynchronous cause. -/
  | copyFailureEnd
  /-- R308: A released static schedule entry starts in ascending order, after its predecessor completes when eflags bit 2 is set. -/
  | scheduleEntryStart
  /-- R304: A command's arrival is applied indivisibly at its barrier's scratchpad, flipping the phase and releasing waiters when arrived covers expected. -/
  | barrierArrival
  /-- R287: A queued MLD zeroes its tile and loads its rows from the local scratchpad, then arrives at its barrier. -/
  | mldExecute
  /-- R287: A queued MST writes its tile's rows to the local scratchpad in ascending order, then arrives at its barrier. -/
  | mstExecute
  /-- R291: A queued MMA steps each cell in its row mask over the reduction dimension under R250. -/
  | mmaExecute
  /-- R290: A queued MZERO sets every cell to zero. -/
  | mzeroExecute
  /-- R292: A queued SHIFTOUT moves every cell into the accumulator slot and zeroes the cells. -/
  | shiftoutExecute
  /-- R292: A queued SHIFTIN loads every cell from the accumulator slot. -/
  | shiftinExecute
  /-- R292: A queued ACCCLR sets every element of the slot to zero. -/
  | accclrExecute
  /-- R293: A queued drain reads and zeroes its rectangle of cells, requantises it and writes elements and scales on path M, then arrives. -/
  | drainqExecute
  /-- R282: A matrix command meeting a memory failure ends, sets its barrier's error and delivers cause 0x0C8 asynchronously. -/
  | matrixCommandFailure
  /-- R349: A queued SKSET loads a query slot from 32 bytes of local scratchpad. -/
  | sksetExecute
  /-- R350: A queued SIEVE scores each listed page's sketches against the query slot, writes the sub-block bitmap and arrives at its barrier. -/
  | sieveExecute
  /-- R350: An SKSET or SIEVE meeting a memory failure ends under R316 with cause 0x0EC. -/
  | sieveCommandFailure
  /-- R314: A base-die unit claims the next ring slot, writes the next tile into it on path I and commits it, ending the subscription after tc tiles or a failure. -/
  | infeedTile
  /-- R314: A base-die unit takes the next Filled slot, writes it to its tile on path I and releases it once the writes are performed. -/
  | outfeedTile
  /-- R217: A map fill replaces a 4 KiB scratchpad line from its global line, makes it Clean and performs the waiting accesses. -/
  | mapFillComplete
  /-- R217: A map fill whose translation fails leaves its line Invalid and traps waiting path T accesses with cause 0x08A. -/
  | mapFillFail
  /-- R337: A KV or dry-fit request arriving at the partition's KV unit is applied as one indivisible table step and answered. -/
  | kvUnitStep
  /-- R339: Nymesque seals a resident KV page and sidecar with AES-256-GCM, writes it to far memory and invalidates its entry. -/
  | pageEvict
  /-- R340: Nymesque reads an evicted page back for a missing lookup, checks its tag and restores it, or poisons the entry. -/
  | pagePromote
  /-- R341: A failed tag check or uncorrectable error poisons an entry and every sequence whose lookups reach it. -/
  | entryPoison
  /-- R212: Nymesque invalidates affected translations in the partition's cores' caches before reusing a changed entry's old frame. -/
  | translationInvalidate
  /-- R211: Each sweep period the partition's sweeper lowers every nonzero heat of every valid leaf by one. -/
  | heatSweep
  /-- R471: Once a Done or Cancelled member's commands and requests have completed, its dry-fit window is dropped and its matrix, sieve, ring and map resources released. -/
  | memberQuiesced
  /-- R471: Once its units' inbound counts are zero the member's scratchpad and slots are released, its done counter decremented, its completion message sent and its references dropped. -/
  | retireRelease
  /-- R477: At least every 2^36 cycles, and before any report is signed, every account's counters and the lifetime records are written to flash. -/
  | usageFlashWrite
  /-- R439: Nymesque triggers a snapshot of the partition's and the shared blocks' snapshot registers. -/
  | snapshotNymesque
  /-- R440: Nymesque collects a latched snapshot into a record and keeps the newest four per partition. -/
  | snapshotCollect
  /-- R477: The supply fails while the device runs; all work ends and the usage counters keep only their last flash write. -/
  | powerLoss
  /-- R480: A die-to-die link, Ethernet port or HBM4E interface loses training during operation, retrains, and is counted in the lifetime records. -/
  | linkRetrain
  /-- R480: A correctable memory error in a stack is corrected and counted in its temperature band. -/
  | correctableError
  /-- R354: A store or atomic request reaches its home, is performed in location order, makes monitor hits, and releases waits that depend on earlier writes being performed. -/
  | writePerformedAtHome
  /-- R86: A shared access's table walk ends after an unbounded time, updating heat and either passing, parking the thread on a page fault, or trapping, after which fetch resumes. -/
  | translationWalkEnd
  /-- R383: A crew's tag-barrier arrival reaches the barrier tree, where it fixes or checks the generation's count and is counted, or is refused with cause 0x143. -/
  | tagBarrierArrival
  deriving DecidableEq, Repr

end Sys2Proof
end

