-- ==== Sys2Proof/Config.lean ====
section
/-! DEFINITION. What an implementation fixes, and the free values: constants without a body, of which
nothing in Lean can prove a value, and the device's numbers (spec/00_scope.md). -/
namespace Sys2Proof.Config

open Sys2Proof

/-- Cycles that pass at a step: free (R3, R206; the manual counts none that a result depends on). -/
opaque elapsed : Nat → Nat
/-- A byte that a racing read returns (R372): free. -/
opaque raced : Nat → Byte
/-- Whether an access missed the translation cache and hit the read cache (R215): free (DESIGN CHOICE 55). -/
opaque cacheHits : Nat → BitVec 2
/-- The rows, and the bytes of further rows, of a put that its peer took before it refused one (R316, R322):
free; the machine uses it within what the command sent. -/
opaque acked : Nat → Nat
/-- What FEXP2 returns where the manual gives a bound and no value (R260): free; the machine uses it
where it lies within the bound. -/
opaque exp2Value : Word → Word
/-- The same for FLOG2 (R260). -/
opaque log2Value : Word → Word
/-- The half-life that the device is set to, in seconds (R47): free; the machine uses it where it is 1 to 3,600. -/
opaque halfLife : Nat
/-- The usage figure after one interval's decay, by half-life and figure (R47): a real product that
the manual gives no precision for; the machine uses it within one unit of the product (DEDUCED 37). -/
opaque decay : Nat → Nat → Nat
/-- SHA-256, named and not defined by the manual (R7, R34, R478): its 256 bits (DESIGN CHOICE 14). -/
opaque sha256Value : List Byte → BitVec 256
/-- A digest's 32 bytes. -/
def digestBytes (x : BitVec 256) : List Byte := (List.range 32).map fun i => x.extractLsb' (8 * i) 8
/-- The 32 bytes of a SHA-256 digest. -/
def sha256 (bs : List Byte) : List Byte := digestBytes (sha256Value bs)
/-- RSASSA-PSS verification: key, digest, signature (R15, R33) (DESIGN CHOICE 14). -/
opaque verify : List Byte → List Byte → List Byte → Bool
/-- The Porbitha firmware key (R33). -/
opaque firmwareKey : List Byte
/-- RSASSA-PSS signature, RSA-3072, under the device identity key (R34, R478): its 3,072 bits (DESIGN CHOICE 14). -/
opaque signValue : List Byte → BitVec 3072
/-- The 384 bytes of a signature (R478). -/
def sign (bs : List Byte) : List Byte := (List.range 384).map fun i => (signValue bs).extractLsb' (8 * i) 8
/-- The device identity certificate (R34). -/
opaque certificate : List Byte
/-- AES-256-GCM: key, IV, additional data, plain text to image and tag (R339) (DESIGN CHOICE 14). -/
opaque gcmSeal : List Byte → List Byte → List Byte → List Byte → List Byte × List Byte
/-- The image that the far memory pool returns is the one that was written, so its tag matches (R340): free,
since the pool lies outside the device. -/
opaque farIntact : Nat → Bool
/-- The items of a body of a level, 0 tile operations, 1 loop nests, 2 scalar blocks (R14): the manual gives no
format of a body (DESIGN CHOICE 15). -/
opaque itemCount : Nat → List Byte → Nat
/-- The translation of one item of a body of a level, nothing where the translator does not implement it (R14)
(DESIGN CHOICE 15). -/
opaque itemWords : Nat → List Byte → Nat → Option (List Word)
/-- The translated items of a function put together: its words, entry and handler (R14) (DESIGN CHOICE 15). -/
opaque assemble : Word → List (List Word) → List Word × Word × Word
/-- The scratch images in a native data section (R13), each with its function and its offset. The manual
gives the section no layout (DESIGN CHOICE 15). -/
opaque scratchImages : List Byte → List (Word × Nat × List Byte)
/-- The shared images in a native data section (R13), each with its offset from the address Nymesque gives
them (DESIGN CHOICE 15). -/
opaque sharedImages : List Byte → List (Nat × List Byte)
/-- The `.const` references of a native data section (R13, R108): the word, the offset from the address of the
shared images, and the part of the address that its immediate takes: 0 lo13, 1 hi19, 2 lo13 and 3 hi19 of the
upper half. The manual does not say where a container keeps them (DESIGN CHOICE 15). -/
opaque constRefs : List Byte → List (Nat × Nat × Nat)
/-- The relocated schedule addresses of a native data section (R112): the member template, and the offset of its
schedule from the address of the shared images (DESIGN CHOICE 15). -/
opaque schedRefs : List Byte → List (Nat × Nat)
/-- The payload of a PATCH, whose bytes the manual does not lay out (R37) (DESIGN CHOICE 18). -/
opaque patchOf : List Byte → Option PatchBody
/-- The same for PARTCFG. -/
opaque partcfgOf : List Byte → Option (Nat × PartCfg)
/-- The same for ACCTCFG. -/
opaque acctcfgOf : List Byte → Option (Nat × AcctCfg)
/-- The same for a firmware image of FWUPD (R33). -/
opaque imageOf : List Byte → Option FwImage
/-- The port at which a packet arrives (R36): free. -/
opaque arrivalPort : Nat → Nat
/-- Where Nymesque puts shared images (R13): free, used where it is possible. -/
opaque imageBase : Nat → DWord
/-- SHA-256 of a partition configuration (R34, R37), whose bytes the manual does not lay out (DESIGN CHOICE 20). -/
opaque configValue : PartCfg → BitVec 256
/-- Its 32 bytes. -/
def configDigest (c : PartCfg) : List Byte := digestBytes (configValue c)
/-- A core whose SRAM needs run-time repair (R31). -/
opaque needsRepair : Nat → Bool
/-- The register blocks of a snapshot record, diagnostic and not laid out by the manual (R440): free. -/
opaque snapBlocks : Nat → Nat → BitVec 16
/-- The reason code of a journal record that no failure gives (R29): free. -/
opaque bootDetail : Nat → BitVec 16

/-- M-cores are numbered 0 to 191, S-cores 192 to 223. -/
def mCores : Nat := 192
/-- Units of 2 MiB of a yard area that PARTCFG does not set (R53). -/
def yardUnits : Nat := 8
/-- The age limit that PARTCFG does not set (R67). -/
def skipLimit : Nat := 16
/-- The pre-emption margin in units of U that PARTCFG does not set (R73). -/
def preemptMargin : Nat := 3600000000
/-- The exponent of the heat sweep's period that PARTCFG does not set (R211). -/
def sweepExp : Nat := 30
/-- Cycles of a millisecond: 144 cycles are 40 ns (R29, R83). -/
def cyclesPerMs : Nat := 3600000
/-- The firmware images that flash holds two slots for (R33) (DESIGN CHOICE 5). -/
def firmwareImages : List Nat := [0, 1]
/-- All cores. -/
def cores : Nat := 224
/-- HBM4E stacks. -/
def stackCount : Nat := 16

end Sys2Proof.Config
end

