-- ==== Sys2Proof/WellFormed.lean ====
section
/-! DEFINITION. Well-formed instructions: the restrictions on field values that a word must meet
beyond the reserved bits which the syntax already leaves out (spec/04_encoding.md R93, R95 checks 4
and 8). An operation or event has no field and is always well formed. -/
namespace Sys2Proof

/-- R378: spin only on the compare-and-swap forms, never with nr; acq never with nr. -/
def AtomMod.ok (cas : Bool) (m : AtomMod) : Bool :=
  (m.spin == 0 || cas) && !(m.spin != 0 && m.nr) && !(m.acq && m.nr)

/-- R263: the largest element position of each conversion code. -/
def cvtIndexMax (k : BitVec 4) : Nat :=
  match k.toNat with
  | 0 => 1 | 1 => 1 | 2 => 3 | 3 => 3 | 4 => 7 | 5 => 0 | 6 => 0 | 7 => 1
  | 8 => 3 | 9 => 0 | 10 => 0 | 11 => 1 | 12 => 1 | 13 => 3 | 14 => 3 | _ => 7

/-- R263: a position within its code's range. -/
def cvtIndexOk (k : BitVec 4) (j : BitVec 3) : Bool := decide (j.toNat ≤ cvtIndexMax k)

/-- Rows of the table that are instruction words; the others are operations and events. -/
def Instr.isWord (i : Instr) : Bool :=
  match i with
  | .load => false
  | .patch => false
  | .unload => false
  | .launch => false
  | .cancel => false
  | .usage => false
  | .attest => false
  | .status => false
  | .jsig => false
  | .move => false
  | .partcfg => false
  | .acctcfg => false
  | .fwupd => false
  | .unknownRequest => false
  | .droppedPacket => false
  | .rmaPut => false
  | .rmaGet => false
  | .rmaAtomic => false
  | .boot => false
  | .i3cJournalRead => false
  | .i3cFirmwareWrite => false
  | .i3cReset => false
  | .roomReport => false
  | .usageInterval => false
  | .sectionAdvertise => false
  | .migrationSend => false
  | .migrationReceive => false
  | .migrationReply => false
  | .jointDecrement => false
  | .memberRegister => false
  | .yputRequest => false
  | .cancelMark => false
  | .memberCancelStop => false
  | .dispatch => false
  | .redispatch => false
  | .preempt => false
  | .memberStop => false
  | .resume => false
  | .regionRestore => false
  | .runLimit => false
  | .gatheringRelease => false
  | .phaseBoundary => false
  | .joinHoldTimeout => false
  | .pauseWindowClose => false
  | .coreClockGate => false
  | .coreWake => false
  | .wakeEnd => false
  | .tagBarrierRelease => false
  | .bentCreate => false
  | .bentRetire => false
  | .asyncTrapTake => false
  | .pageFaultService => false
  | .replyLand => false
  | .copyStart => false
  | .copyComplete => false
  | .copyFailureEnd => false
  | .scheduleEntryStart => false
  | .barrierArrival => false
  | .mldExecute => false
  | .mstExecute => false
  | .mmaExecute => false
  | .mzeroExecute => false
  | .shiftoutExecute => false
  | .shiftinExecute => false
  | .accclrExecute => false
  | .drainqExecute => false
  | .matrixCommandFailure => false
  | .sksetExecute => false
  | .sieveExecute => false
  | .sieveCommandFailure => false
  | .infeedTile => false
  | .outfeedTile => false
  | .mapFillComplete => false
  | .mapFillFail => false
  | .kvUnitStep => false
  | .pageEvict => false
  | .pagePromote => false
  | .entryPoison => false
  | .translationInvalidate => false
  | .heatSweep => false
  | .memberQuiesced => false
  | .retireRelease => false
  | .usageFlashWrite => false
  | .snapshotNymesque => false
  | .snapshotCollect => false
  | .nop => true
  | .exit => true
  | .yield => true
  | .bi _ _ => true
  | .calli _ _ => true
  | .ret _ => true
  | .pause _ _ => true
  | .b _ _ => true
  | .bn _ _ => true
  | .jmp _ => true
  | .call _ => true
  | .guard _ _ => true
  | .guardn _ _ => true
  | .crewnew _ _ => true
  | .join _ _ => true
  | .leave _ => true
  | .rejoin _ => true
  | .crewq _ _ _ => true
  | .ballot _ _ _ => true
  | .frame _ _ => true
  | .frameend => true
  | .fbreak => true
  | .gseed _ _ => true
  | .gcollect _ _ => true
  | .gpres _ _ => true
  | .sguard _ _ => true
  | .add _ _ _ => true
  | .sub _ _ _ => true
  | .mul _ _ _ => true
  | .mulh _ _ _ => true
  | .mulhu _ _ _ => true
  | .mulw _ _ _ => true
  | .div _ _ _ => true
  | .divu _ _ _ => true
  | .rem _ _ _ => true
  | .remu _ _ _ => true
  | .and _ _ _ => true
  | .or _ _ _ => true
  | .xor _ _ _ => true
  | .andn _ _ _ => true
  | .shl _ _ _ => true
  | .shr _ _ _ => true
  | .sra _ _ _ => true
  | .rol _ _ _ => true
  | .min _ _ _ => true
  | .max _ _ _ => true
  | .minu _ _ _ => true
  | .maxu _ _ _ => true
  | .clz _ _ => true
  | .popc _ _ => true
  | .brev _ _ => true
  | .add64 _ _ _ => true
  | .sub64 _ _ _ => true
  | .sel _ _ _ _ => true
  | .cmp _ _ _ _ => true
  | .addi _ _ _ => true
  | .andi _ _ _ => true
  | .ori _ _ _ => true
  | .xori _ _ _ => true
  | .shli _ _ _ => true
  | .shri _ _ _ => true
  | .srai _ _ _ => true
  | .muli _ _ _ => true
  | .li _ _ => true
  | .lih _ _ => true
  | .cmpi _ _ _ _ => true
  | .pand _ _ _ => true
  | .por _ _ _ => true
  | .pxor _ _ _ => true
  | .pnot _ _ => true
  | .pget _ => true
  | .pset _ => true
  | .wbase _ => true
  | .wbaseq _ => true
  | .mfs _ _ => true
  | .mts _ _ => true
  | .ldB _ _ _ => true
  | .ldBs _ _ _ => true
  | .ldH _ _ _ => true
  | .ldHs _ _ _ => true
  | .ldW _ _ _ => true
  | .ldD _ _ _ => true
  | .ldQ _ _ _ => true
  | .prfm _ _ _ => true
  | .stB _ _ _ => true
  | .stH _ _ _ => true
  | .stW _ _ _ => true
  | .stD _ _ _ => true
  | .stQ _ _ _ => true
  | .ldxB _ _ _ => true
  | .ldxBs _ _ _ => true
  | .ldxH _ _ _ => true
  | .ldxHs _ _ _ => true
  | .ldxW _ _ _ => true
  | .ldxD _ _ _ => true
  | .ldxQ _ _ _ => true
  | .stxB _ _ _ => true
  | .stxH _ _ _ => true
  | .stxW _ _ _ => true
  | .stxD _ _ _ => true
  | .stxQ _ _ _ => true
  | .aptest _ _ => true
  | .apcvtOff _ _ => true
  | .apcvtLoc _ _ => true
  | .apcvtClu _ _ => true
  | .mapset _ _ _ => true
  | .maprel _ => true
  | .mapflush _ => true
  | .mapfill _ _ => true
  | .mmovW _ _ => true
  | .mswpW _ _ => true
  | .aadd _ _ _ => true
  | .amin _ _ _ => true
  | .amax _ _ _ => true
  | .aand _ _ _ => true
  | .aor _ _ _ => true
  | .axor _ _ _ => true
  | .axchg _ _ _ => true
  | .acas _ _ _ => true
  | .acas64 _ _ _ => true
  | .afadd _ _ _ => true
  | .afmax _ _ _ => true
  | .phase => true
  | .fence _ _ => true
  | .tbar _ _ => true
  | .tbarP _ _ => true
  | .tbara _ _ _ => true
  | .tbaraP _ _ _ => true
  | .tbarw _ _ => true
  | .tbarwP _ _ => true
  | .monitor _ _ => true
  | .mwaitm _ _ => true
  | .fadd _ _ _ _ _ => true
  | .fsub _ _ _ _ _ => true
  | .fmul _ _ _ _ _ => true
  | .ffma _ _ _ _ _ => true
  | .fmin _ _ _ _ => true
  | .fmax _ _ _ _ => true
  | .fneg _ _ _ => true
  | .fabs _ _ _ => true
  | .frcp _ _ => true
  | .frsq _ _ => true
  | .fexp2 _ _ => true
  | .flog2 _ _ => true
  | .fcmp _ _ _ _ => true
  | .cvt _ _ _ _ _ => true
  | .cvts _ _ _ _ _ => true
  | .cvtt _ _ _ _ => true
  | .bscale _ _ _ _ => true
  | .padd16s _ _ _ => true
  | .psub16s _ _ _ => true
  | .pmul16 _ _ _ => true
  | .pmax16 _ _ _ => true
  | .pmin16 _ _ _ => true
  | .pmac16 _ _ _ => true
  | .shrrsS16 _ _ _ => true
  | .shrrsS8 _ _ _ => true
  | .shrrsN8 _ _ _ => true
  | .satrd _ => true
  | .satcl => true
  | .shfl _ _ _ => true
  | .xred _ _ _ => true
  | .xscan _ _ _ => true
  | .slideDn _ _ _ _ => true
  | .slideUp _ _ _ _ => true
  | .mcfg _ _ _ => true
  | .mrdc _ _ => true
  | .mld _ _ _ => true
  | .mst _ _ _ => true
  | .macq _ => true
  | .mrel => true
  | .mma _ _ => true
  | .mzero => true
  | .shiftout _ => true
  | .shiftin _ => true
  | .accclr _ => true
  | .drainqBf16 _ _ _ => true
  | .drainqE4m3 _ _ _ => true
  | .drainqE5m2 _ _ _ => true
  | .drainqE2m1 _ _ _ => true
  | .cpy _ _ _ => true
  | .cpym _ _ _ => true
  | .cpyaOut _ _ _ => true
  | .cpyaIn _ _ _ => true
  | .cpynPut _ _ _ => true
  | .cpynGet _ _ _ => true
  | .binit _ _ => true
  | .bexp _ _ => true
  | .barr _ _ => true
  | .bwait _ _ _ => true
  | .btest _ _ _ => true
  | .stadv _ _ => true
  | .ringpushClaim _ _ => true
  | .ringpushFill _ _ => true
  | .ringpopTake _ _ => true
  | .ringpopFree _ _ => true
  | .ringq _ _ _ => true
  | .ringsub _ _ => true
  | .ringsubIn _ _ => true
  | .ringsubOut _ _ => true
  | .spawn _ _ _ => true
  | .yput _ _ _ => true
  | .jnew _ _ => true
  | .jdec _ _ _ => true
  | .ycancel _ _ => true
  | .kvlook _ _ => true
  | .kvalloc _ _ => true
  | .kvfree _ _ => true
  | .kvshare _ _ _ => true
  | .skset _ _ => true
  | .sieve _ _ => true
  | .svlist _ _ => true
  | .dfopen _ _ => true
  | .dfmark _ _ => true
  | .dfkeep _ _ => true
  | .dfdrop _ _ => true
  | .dfq _ _ => true
  | .trap _ _ => true
  | .rett _ => true
  | .mfx _ _ => true
  | .mtx _ _ => true
  | .snap _ _ => true
  | .bkpt _ => true
  | .fltq _ => true
  | .powerLoss => false
  | .linkRetrain => false
  | .correctableError => false
  | .writePerformedAtHome => false
  | .translationWalkEnd => false
  | .tagBarrierArrival => false

/-- Whether an instruction's fields take only values the manual assigns. -/
def Instr.wf (i : Instr) : Bool :=
  match i with
  | .load => true
  | .patch => true
  | .unload => true
  | .launch => true
  | .cancel => true
  | .usage => true
  | .attest => true
  | .status => true
  | .jsig => true
  | .move => true
  | .partcfg => true
  | .acctcfg => true
  | .fwupd => true
  | .unknownRequest => true
  | .droppedPacket => true
  | .rmaPut => true
  | .rmaGet => true
  | .rmaAtomic => true
  | .boot => true
  | .i3cJournalRead => true
  | .i3cFirmwareWrite => true
  | .i3cReset => true
  | .roomReport => true
  | .usageInterval => true
  | .sectionAdvertise => true
  | .migrationSend => true
  | .migrationReceive => true
  | .migrationReply => true
  | .jointDecrement => true
  | .memberRegister => true
  | .yputRequest => true
  | .cancelMark => true
  | .memberCancelStop => true
  | .dispatch => true
  | .redispatch => true
  | .preempt => true
  | .memberStop => true
  | .resume => true
  | .regionRestore => true
  | .runLimit => true
  | .gatheringRelease => true
  | .phaseBoundary => true
  | .joinHoldTimeout => true
  | .pauseWindowClose => true
  | .coreClockGate => true
  | .coreWake => true
  | .wakeEnd => true
  | .tagBarrierRelease => true
  | .bentCreate => true
  | .bentRetire => true
  | .asyncTrapTake => true
  | .pageFaultService => true
  | .replyLand => true
  | .copyStart => true
  | .copyComplete => true
  | .copyFailureEnd => true
  | .scheduleEntryStart => true
  | .barrierArrival => true
  | .mldExecute => true
  | .mstExecute => true
  | .mmaExecute => true
  | .mzeroExecute => true
  | .shiftoutExecute => true
  | .shiftinExecute => true
  | .accclrExecute => true
  | .drainqExecute => true
  | .matrixCommandFailure => true
  | .sksetExecute => true
  | .sieveExecute => true
  | .sieveCommandFailure => true
  | .infeedTile => true
  | .outfeedTile => true
  | .mapFillComplete => true
  | .mapFillFail => true
  | .kvUnitStep => true
  | .pageEvict => true
  | .pagePromote => true
  | .entryPoison => true
  | .translationInvalidate => true
  | .heatSweep => true
  | .memberQuiesced => true
  | .retireRelease => true
  | .usageFlashWrite => true
  | .snapshotNymesque => true
  | .snapshotCollect => true
  | .nop => true
  | .exit => true
  | .yield => true
  | .bi _ _ => true
  | .calli _ _ => true
  | .ret _ => true
  | .pause _ _ => true
  | .b _ _ => true
  | .bn _ _ => true
  | .jmp _ => true
  | .call _ => true
  | .guard _ _ => true
  | .guardn _ _ => true
  | .crewnew _ _ => true
  | .join _ _ => true
  | .leave _ => true
  | .rejoin _ => true
  | .crewq _ _ _ => true
  | .ballot _ _ _ => true
  | .frame _ _ => true
  | .frameend => true
  | .fbreak => true
  | .gseed _ _ => true
  | .gcollect _ _ => true
  | .gpres _ a => decide (96 ≤ a.toNat)
  | .sguard _ _ => true
  | .add _ _ _ => true
  | .sub _ _ _ => true
  | .mul _ _ _ => true
  | .mulh _ _ _ => true
  | .mulhu _ _ _ => true
  | .mulw _ _ _ => true
  | .div _ _ _ => true
  | .divu _ _ _ => true
  | .rem _ _ _ => true
  | .remu _ _ _ => true
  | .and _ _ _ => true
  | .or _ _ _ => true
  | .xor _ _ _ => true
  | .andn _ _ _ => true
  | .shl _ _ _ => true
  | .shr _ _ _ => true
  | .sra _ _ _ => true
  | .rol _ _ _ => true
  | .min _ _ _ => true
  | .max _ _ _ => true
  | .minu _ _ _ => true
  | .maxu _ _ _ => true
  | .clz _ _ => true
  | .popc _ _ => true
  | .brev _ _ => true
  | .add64 _ _ _ => true
  | .sub64 _ _ _ => true
  | .sel _ _ _ _ => true
  | .cmp _ _ _ _ => true
  | .addi _ _ _ => true
  | .andi _ _ _ => true
  | .ori _ _ _ => true
  | .xori _ _ _ => true
  | .shli _ _ _ => true
  | .shri _ _ _ => true
  | .srai _ _ _ => true
  | .muli _ _ _ => true
  | .li _ _ => true
  | .lih _ _ => true
  | .cmpi _ _ _ _ => true
  | .pand _ _ _ => true
  | .por _ _ _ => true
  | .pxor _ _ _ => true
  | .pnot _ _ => true
  | .pget _ => true
  | .pset _ => true
  | .wbase _ => true
  | .wbaseq _ => true
  | .mfs _ s => decide (s.toNat < 0x15)
  | .mts s _ => (s == 0x11 || s == 0x14)
  | .ldB _ _ _ => true
  | .ldBs _ _ _ => true
  | .ldH _ _ _ => true
  | .ldHs _ _ _ => true
  | .ldW _ _ _ => true
  | .ldD _ _ _ => true
  | .ldQ _ _ _ => true
  | .prfm h _ _ => h != 3
  | .stB _ _ _ => true
  | .stH _ _ _ => true
  | .stW _ _ _ => true
  | .stD _ _ _ => true
  | .stQ _ _ _ => true
  | .ldxB _ _ _ => true
  | .ldxBs _ _ _ => true
  | .ldxH _ _ _ => true
  | .ldxHs _ _ _ => true
  | .ldxW _ _ _ => true
  | .ldxD _ _ _ => true
  | .ldxQ _ _ _ => true
  | .stxB _ _ _ => true
  | .stxH _ _ _ => true
  | .stxW _ _ _ => true
  | .stxD _ _ _ => true
  | .stxQ _ _ _ => true
  | .aptest _ _ => true
  | .apcvtOff _ _ => true
  | .apcvtLoc _ _ => true
  | .apcvtClu _ _ => true
  | .mapset _ _ _ => true
  | .maprel _ => true
  | .mapflush _ => true
  | .mapfill _ _ => true
  | .mmovW _ _ => true
  | .mswpW _ _ => true
  | .aadd _ _ m => m.ok false
  | .amin _ _ m => m.ok false
  | .amax _ _ m => m.ok false
  | .aand _ _ m => m.ok false
  | .aor _ _ m => m.ok false
  | .axor _ _ m => m.ok false
  | .axchg _ _ m => m.ok false
  | .acas _ _ m => m.ok true
  | .acas64 _ _ m => m.ok true
  | .afadd _ _ m => m.ok false
  | .afmax _ _ m => m.ok false
  | .phase => true
  | .fence x y => (decide (x.toNat < 6) && decide (y.toNat < 6))
  | .tbar _ _ => true
  | .tbarP _ _ => true
  | .tbara _ _ _ => true
  | .tbaraP _ _ _ => true
  | .tbarw _ _ => true
  | .tbarwP _ _ => true
  | .monitor _ _ => true
  | .mwaitm _ _ => true
  | .fadd f _ _ _ _ => f != 3
  | .fsub f _ _ _ _ => f != 3
  | .fmul f _ _ _ _ => f != 3
  | .ffma f _ _ _ _ => f != 3
  | .fmin f _ _ _ => f != 3
  | .fmax f _ _ _ => f != 3
  | .fneg f _ _ => f != 3
  | .fabs f _ _ => f != 3
  | .frcp _ _ => true
  | .frsq _ _ => true
  | .fexp2 _ _ => true
  | .flog2 _ _ => true
  | .fcmp _ _ _ _ => true
  | .cvt _ _ _ k j => cvtIndexOk k j
  | .cvts _ _ _ k j => cvtIndexOk k j
  | .cvtt _ _ k j => cvtIndexOk k j
  | .bscale _ _ _ _ => true
  | .padd16s _ _ _ => true
  | .psub16s _ _ _ => true
  | .pmul16 _ _ _ => true
  | .pmax16 _ _ _ => true
  | .pmin16 _ _ _ => true
  | .pmac16 _ _ _ => true
  | .shrrsS16 _ _ _ => true
  | .shrrsS8 _ _ _ => true
  | .shrrsN8 _ _ _ => true
  | .satrd _ => true
  | .satcl => true
  | .shfl _ _ _ => true
  | .xred o _ _ => decide (o.toNat < 6)
  | .xscan o _ _ => decide (o.toNat < 6)
  | .slideDn _ _ _ _ => true
  | .slideUp _ _ _ _ => true
  | .mcfg _ _ _ => true
  | .mrdc _ _ => true
  | .mld _ _ _ => true
  | .mst _ _ _ => true
  | .macq _ => true
  | .mrel => true
  | .mma _ _ => true
  | .mzero => true
  | .shiftout _ => true
  | .shiftin _ => true
  | .accclr _ => true
  | .drainqBf16 _ _ _ => true
  | .drainqE4m3 _ _ _ => true
  | .drainqE5m2 _ _ _ => true
  | .drainqE2m1 _ _ _ => true
  | .cpy _ _ _ => true
  | .cpym _ _ _ => true
  | .cpyaOut _ _ _ => true
  | .cpyaIn _ _ _ => true
  | .cpynPut _ _ _ => true
  | .cpynGet _ _ _ => true
  | .binit _ _ => true
  | .bexp _ _ => true
  | .barr _ _ => true
  | .bwait _ _ _ => true
  | .btest _ _ _ => true
  | .stadv _ _ => true
  | .ringpushClaim _ _ => true
  | .ringpushFill _ _ => true
  | .ringpopTake _ _ => true
  | .ringpopFree _ _ => true
  | .ringq _ _ _ => true
  | .ringsub _ _ => true
  | .ringsubIn _ _ => true
  | .ringsubOut _ _ => true
  | .spawn _ _ _ => true
  | .yput _ _ _ => true
  | .jnew _ _ => true
  | .jdec _ _ _ => true
  | .ycancel _ _ => true
  | .kvlook _ _ => true
  | .kvalloc _ _ => true
  | .kvfree _ _ => true
  | .kvshare _ _ _ => true
  | .skset _ _ => true
  | .sieve _ _ => true
  | .svlist _ _ => true
  | .dfopen _ _ => true
  | .dfmark _ _ => true
  | .dfkeep _ _ => true
  | .dfdrop _ _ => true
  | .dfq _ _ => true
  | .trap _ _ => true
  | .rett _ => true
  | .mfx _ a => decide (a.toNat < 5)
  | .mtx a _ => decide (a.toNat < 5)
  | .snap _ _ => true
  | .bkpt _ => true
  | .fltq _ => true
  | .powerLoss => true
  | .linkRetrain => true
  | .correctableError => true
  | .writePerformedAtHome => true
  | .translationWalkEnd => true
  | .tagBarrierArrival => true

end Sys2Proof
end

