-- ==== Sys2Proof/Decode.lean ====
section
/-! DEFINITION. The decoder, total on every 32-bit word, and after it the encoder. A word that is no
instruction is rejected with the cause of spec/04_encoding.md R95 (checks 2, 3, 4, 7 and 8; the
checks that depend on the thread are made by the machine). -/
namespace Sys2Proof

/-- What a word decodes to: an instruction, or the cause that R95 names. -/
inductive Decoded where
  | ok (i : Instr)
  | bad (cause : Nat)
  deriving DecidableEq, Repr

/-- The modifiers in the b field of an atomic (R378). -/
def AtomMod.ofBits (b : Name) : AtomMod where
  spin := b.extractLsb' 5 2
  nr := b.getLsbD 4
  acq := b.getLsbD 3
  pub := b.getLsbD 2
  scope := b.extractLsb' 0 2

/-- The b field of an atomic (R378). -/
def AtomMod.bits (m : AtomMod) : Name :=
  m.spin ++ BitVec.ofBool m.nr ++ BitVec.ofBool m.acq ++ BitVec.ofBool m.pub ++ m.scope

/-- Check 8 of R95: the reserved bits named must be zero. -/
def res (zero : Bool) (i : Instr) : Decoded := if zero then .ok i else .bad 3

/-- An instruction with restricted field values: a value that is an unassigned func or selector
(check 4) is cause 0x002, any other is a nonzero reserved part of a field (check 8). -/
def chk (zero : Bool) (i : Instr) : Decoded :=
  if i.wf then res zero i else
  match i with
  | .gpres _ _ => .bad 3 | .fence _ _ => .bad 3 | .prfm _ _ _ => .bad 3
  | .cvt _ _ _ _ _ => .bad 3 | .cvts _ _ _ _ _ => .bad 3 | .cvtt _ _ _ _ => .bad 3
  | .aadd _ _ _ => .bad 3 | .amin _ _ _ => .bad 3 | .amax _ _ _ => .bad 3
  | .aand _ _ _ => .bad 3 | .aor _ _ _ => .bad 3 | .axor _ _ _ => .bad 3
  | .axchg _ _ _ => .bad 3 | .acas _ _ _ => .bad 3 | .acas64 _ _ _ => .bad 3
  | .afadd _ _ _ => .bad 3 | .afmax _ _ _ => .bad 3
  | _ => .bad 2


/-- Major 0x00. -/
def decodeMajor0 (f : BitVec 6) (d a b : Name) : Decoded :=
  match f.toNat with
  | 1 => res (d == 0 && a == 0 && b == 0) .nop
  | 2 => res (d == 0 && a == 0 && b == 0) .exit
  | 3 => res (d == 0 && a == 0 && b == 0) .yield
  | 4 => res (d == 0) (.bi a b)
  | 5 => res (d == 0) (.calli a b)
  | 6 => res (d == 0 && b == 0) (.ret a)
  | 32 => res (d == 0 && (b.extractLsb' 6 1) == 0) (.trap a (b.extractLsb' 0 6))
  | 33 => res (d == 0 && b == 0) (.rett a)
  | 34 => chk ((a.extractLsb' 3 4) == 0 && b == 0) (.mfx d (a.extractLsb' 0 3))
  | 35 => chk (d == 0 && (a.extractLsb' 3 4) == 0) (.mtx (a.extractLsb' 0 3) b)
  | 36 => res (b == 0) (.snap d a)
  | 37 => res (d == 0 && a == 0) (.bkpt b)
  | 38 => res (a == 0 && b == 0) (.fltq d)
  | _ => .bad 2

/-- Major 0x01. -/
def decodeMajor1 (f : BitVec 3) (d a : Name) (i : BitVec 10) : Decoded :=
  match f.toNat with
  | 0 => res (d == 0) (.pause a i)
  | _ => .bad 2

/-- Major 0x05. -/
def decodeMajor5 (f : BitVec 6) (d a b : Name) : Decoded :=
  match f.toNat with
  | 1 => res (b == 0) (.crewnew d a)
  | 2 => res (b == 0) (.join d a)
  | 3 => res (a == 0 && b == 0) (.leave d)
  | 4 => res (d == 0 && b == 0) (.rejoin a)
  | 5 => res ((b.extractLsb' 2 5) == 0) (.crewq d a (b.extractLsb' 0 2))
  | 6 => res ((b.extractLsb' 3 4) == 0) (.ballot d a (b.extractLsb' 0 3))
  | _ => .bad 2

/-- Major 0x06. -/
def decodeMajor6 (f : BitVec 6) (d a b : Name) : Decoded :=
  match f.toNat with
  | 1 => res (d == 0) (.frame a b)
  | 2 => res (d == 0 && a == 0 && b == 0) .frameend
  | 3 => res (d == 0 && a == 0 && b == 0) .fbreak
  | 4 => res ((d.extractLsb' 3 4) == 0 && b == 0) (.gseed (d.extractLsb' 0 3) a)
  | 5 => res (a == 0 && (b.extractLsb' 3 4) == 0) (.gcollect d (b.extractLsb' 0 3))
  | 6 => chk ((d.extractLsb' 3 4) == 0 && b == 0) (.gpres (d.extractLsb' 0 3) a)
  | _ => .bad 2

/-- Major 0x07. -/
def decodeMajor7 (f : BitVec 6) (d a b : Name) : Decoded :=
  if f.extractLsb' 3 3 == 4#3 then res true (.sel (f.extractLsb' 0 3) d a b)
  else   if f.extractLsb' 3 3 == 6#3 then res ((d.extractLsb' 3 4) == 0) (.cmp (f.extractLsb' 0 3) (d.extractLsb' 0 3) a b)
  else match f.toNat with
  | 1 => res true (.add d a b)
  | 2 => res true (.sub d a b)
  | 3 => res true (.mul d a b)
  | 4 => res true (.mulh d a b)
  | 5 => res true (.mulhu d a b)
  | 6 => res true (.mulw d a b)
  | 7 => res true (.div d a b)
  | 8 => res true (.divu d a b)
  | 9 => res true (.rem d a b)
  | 10 => res true (.remu d a b)
  | 11 => res true (.and d a b)
  | 12 => res true (.or d a b)
  | 13 => res true (.xor d a b)
  | 14 => res true (.andn d a b)
  | 15 => res true (.shl d a b)
  | 16 => res true (.shr d a b)
  | 17 => res true (.sra d a b)
  | 18 => res true (.rol d a b)
  | 19 => res true (.min d a b)
  | 20 => res true (.max d a b)
  | 21 => res true (.minu d a b)
  | 22 => res true (.maxu d a b)
  | 23 => res (b == 0) (.clz d a)
  | 24 => res (b == 0) (.popc d a)
  | 25 => res (b == 0) (.brev d a)
  | 26 => res true (.add64 d a b)
  | 27 => res true (.sub64 d a b)
  | _ => .bad 2

/-- Major 0x08. -/
def decodeMajor8 (f : BitVec 3) (d a : Name) (i : BitVec 10) : Decoded :=
  match f.toNat with
  | 0 => res true (.addi d a i)
  | 1 => res true (.andi d a i)
  | 2 => res true (.ori d a i)
  | 3 => res true (.xori d a i)
  | 4 => res ((i.extractLsb' 5 5) == 0) (.shli d a (i.extractLsb' 0 5))
  | 5 => res ((i.extractLsb' 5 5) == 0) (.shri d a (i.extractLsb' 0 5))
  | 6 => res ((i.extractLsb' 5 5) == 0) (.srai d a (i.extractLsb' 0 5))
  | 7 => res true (.muli d a i)
  | _ => .bad 2

/-- Major 0x09. -/
def decodeMajor9 (f : BitVec 1) (d : Name) (i : BitVec 19) : Decoded :=
  match f.toNat with
  | 0 => res true (.li d i)
  | 1 => res true (.lih d i)
  | _ => .bad 2

/-- Major 0x0a. -/
def decodeMajor10 (f : BitVec 3) (d a : Name) (i : BitVec 10) : Decoded :=
  res ((d.extractLsb' 3 4) == 0) (.cmpi f (d.extractLsb' 0 3) a i)

/-- Major 0x0b. -/
def decodeMajor11 (f : BitVec 6) (d a b : Name) : Decoded :=
  match f.toNat with
  | 1 => res ((d.extractLsb' 3 4) == 0 && (a.extractLsb' 3 4) == 0 && (b.extractLsb' 3 4) == 0) (.pand (d.extractLsb' 0 3) (a.extractLsb' 0 3) (b.extractLsb' 0 3))
  | 2 => res ((d.extractLsb' 3 4) == 0 && (a.extractLsb' 3 4) == 0 && (b.extractLsb' 3 4) == 0) (.por (d.extractLsb' 0 3) (a.extractLsb' 0 3) (b.extractLsb' 0 3))
  | 3 => res ((d.extractLsb' 3 4) == 0 && (a.extractLsb' 3 4) == 0 && (b.extractLsb' 3 4) == 0) (.pxor (d.extractLsb' 0 3) (a.extractLsb' 0 3) (b.extractLsb' 0 3))
  | 4 => res ((d.extractLsb' 3 4) == 0 && (a.extractLsb' 3 4) == 0 && b == 0) (.pnot (d.extractLsb' 0 3) (a.extractLsb' 0 3))
  | 5 => res (a == 0 && b == 0) (.pget d)
  | 6 => res (d == 0 && b == 0) (.pset a)
  | 7 => res (d == 0 && b == 0) (.wbase a)
  | 8 => res (a == 0 && b == 0) (.wbaseq d)
  | 9 => chk (b == 0) (.mfs d a)
  | 10 => chk (d == 0) (.mts a b)
  | _ => .bad 2

/-- Major 0x0c. -/
def decodeMajor12 (f : BitVec 3) (d a : Name) (i : BitVec 10) : Decoded :=
  match f.toNat with
  | 0 => res true (.ldB d a i)
  | 1 => res true (.ldBs d a i)
  | 2 => res true (.ldH d a i)
  | 3 => res true (.ldHs d a i)
  | 4 => res true (.ldW d a i)
  | 5 => res true (.ldD d a i)
  | 6 => res true (.ldQ d a i)
  | 7 => chk ((d.extractLsb' 2 5) == 0) (.prfm (d.extractLsb' 0 2) a i)
  | _ => .bad 2

/-- Major 0x0d. -/
def decodeMajor13 (f : BitVec 3) (d a : Name) (i : BitVec 10) : Decoded :=
  match f.toNat with
  | 0 => res true (.stB d a i)
  | 1 => res true (.stH d a i)
  | 2 => res true (.stW d a i)
  | 3 => res true (.stD d a i)
  | 4 => res true (.stQ d a i)
  | _ => .bad 2

/-- Major 0x0e. -/
def decodeMajor14 (f : BitVec 6) (d a b : Name) : Decoded :=
  match f.toNat with
  | 1 => res true (.ldxB d a b)
  | 2 => res true (.ldxBs d a b)
  | 3 => res true (.ldxH d a b)
  | 4 => res true (.ldxHs d a b)
  | 5 => res true (.ldxW d a b)
  | 6 => res true (.ldxD d a b)
  | 7 => res true (.ldxQ d a b)
  | 9 => res true (.stxB d a b)
  | 10 => res true (.stxH d a b)
  | 11 => res true (.stxW d a b)
  | 12 => res true (.stxD d a b)
  | 13 => res true (.stxQ d a b)
  | 16 => res (b == 0) (.aptest d a)
  | 17 => res (b == 0) (.apcvtOff d a)
  | 18 => res (b == 0) (.apcvtLoc d a)
  | 19 => res (b == 0) (.apcvtClu d a)
  | 24 => res true (.mapset d a b)
  | 25 => res (d == 0 && b == 0) (.maprel a)
  | 26 => res (d == 0 && b == 0) (.mapflush a)
  | 27 => res (d == 0) (.mapfill a b)
  | 28 => res (d == 0) (.mmovW a b)
  | 29 => res (d == 0) (.mswpW a b)
  | _ => .bad 2

/-- Major 0x0f. -/
def decodeMajor15 (f : BitVec 6) (d a b : Name) : Decoded :=
  match f.toNat with
  | 1 => chk true (.aadd d a (AtomMod.ofBits b))
  | 2 => chk true (.amin d a (AtomMod.ofBits b))
  | 3 => chk true (.amax d a (AtomMod.ofBits b))
  | 4 => chk true (.aand d a (AtomMod.ofBits b))
  | 5 => chk true (.aor d a (AtomMod.ofBits b))
  | 6 => chk true (.axor d a (AtomMod.ofBits b))
  | 7 => chk true (.axchg d a (AtomMod.ofBits b))
  | 8 => chk true (.acas d a (AtomMod.ofBits b))
  | 9 => chk true (.acas64 d a (AtomMod.ofBits b))
  | 10 => chk true (.afadd d a (AtomMod.ofBits b))
  | 11 => chk true (.afmax d a (AtomMod.ofBits b))
  | _ => .bad 2

/-- Major 0x10. -/
def decodeMajor16 (f : BitVec 6) (d a b : Name) : Decoded :=
  match f.toNat with
  | 1 => res (d == 0 && a == 0 && b == 0) .phase
  | 2 => chk (d == 0 && (a.extractLsb' 3 4) == 0 && (b.extractLsb' 3 4) == 0) (.fence (a.extractLsb' 0 3) (b.extractLsb' 0 3))
  | 8 => res (d == 0 && (a.extractLsb' 3 4) == 0) (.tbar (a.extractLsb' 0 3) b)
  | 9 => res (d == 0 && (a.extractLsb' 3 4) == 0) (.tbarP (a.extractLsb' 0 3) b)
  | 10 => res ((a.extractLsb' 3 4) == 0) (.tbara d (a.extractLsb' 0 3) b)
  | 11 => res ((a.extractLsb' 3 4) == 0) (.tbaraP d (a.extractLsb' 0 3) b)
  | 12 => res (d == 0 && (a.extractLsb' 3 4) == 0) (.tbarw (a.extractLsb' 0 3) b)
  | 13 => res (d == 0 && (a.extractLsb' 3 4) == 0) (.tbarwP (a.extractLsb' 0 3) b)
  | 16 => res (b == 0) (.monitor d a)
  | 17 => res (b == 0) (.mwaitm d a)
  | _ => .bad 2

/-- Major 0x11. -/
def decodeMajor17 (f : BitVec 6) (d a b : Name) : Decoded :=
  if f.extractLsb' 4 2 == 0#2 then chk true (.fadd (f.extractLsb' 2 2) (f.extractLsb' 0 2) d a b)
  else   if f.extractLsb' 4 2 == 1#2 then chk true (.fsub (f.extractLsb' 2 2) (f.extractLsb' 0 2) d a b)
  else   if f.extractLsb' 4 2 == 2#2 then chk true (.fmul (f.extractLsb' 2 2) (f.extractLsb' 0 2) d a b)
  else   if f.extractLsb' 4 2 == 3#2 then chk true (.ffma (f.extractLsb' 2 2) (f.extractLsb' 0 2) d a b)
  else .bad 2

/-- Major 0x12. -/
def decodeMajor18 (f : BitVec 6) (d a b : Name) : Decoded :=
  if f.extractLsb' 2 4 == 0#4 then chk true (.fmin (f.extractLsb' 0 2) d a b)
  else   if f.extractLsb' 2 4 == 1#4 then chk true (.fmax (f.extractLsb' 0 2) d a b)
  else   if f.extractLsb' 2 4 == 2#4 then chk (b == 0) (.fneg (f.extractLsb' 0 2) d a)
  else   if f.extractLsb' 2 4 == 3#4 then chk (b == 0) (.fabs (f.extractLsb' 0 2) d a)
  else   if f.extractLsb' 3 3 == 4#3 then res ((d.extractLsb' 3 4) == 0) (.fcmp (f.extractLsb' 0 3) (d.extractLsb' 0 3) a b)
  else match f.toNat with
  | 16 => res (b == 0) (.frcp d a)
  | 20 => res (b == 0) (.frsq d a)
  | 24 => res (b == 0) (.fexp2 d a)
  | 28 => res (b == 0) (.flog2 d a)
  | _ => .bad 2

/-- Major 0x13. -/
def decodeMajor19 (f : BitVec 6) (d a b : Name) : Decoded :=
  if f.extractLsb' 2 4 == 0#4 then chk true (.cvt (f.extractLsb' 0 2) d a (b.extractLsb' 3 4) (b.extractLsb' 0 3))
  else   if f.extractLsb' 2 4 == 1#4 then chk true (.cvts (f.extractLsb' 0 2) d a (b.extractLsb' 3 4) (b.extractLsb' 0 3))
  else   if f.extractLsb' 2 4 == 4#4 then res true (.bscale (f.extractLsb' 0 2) d a b)
  else match f.toNat with
  | 8 => chk true (.cvtt d a (b.extractLsb' 3 4) (b.extractLsb' 0 3))
  | _ => .bad 2

/-- Major 0x14. -/
def decodeMajor20 (f : BitVec 6) (d a b : Name) : Decoded :=
  match f.toNat with
  | 1 => res true (.padd16s d a b)
  | 2 => res true (.psub16s d a b)
  | 3 => res true (.pmul16 d a b)
  | 4 => res true (.pmax16 d a b)
  | 5 => res true (.pmin16 d a b)
  | 6 => res true (.pmac16 d a b)
  | 7 => res true (.shrrsS16 d a b)
  | 8 => res true (.shrrsS8 d a b)
  | 9 => res true (.shrrsN8 d a b)
  | 12 => res (a == 0 && b == 0) (.satrd d)
  | 13 => res (d == 0 && a == 0 && b == 0) .satcl
  | _ => .bad 2

/-- Major 0x15. -/
def decodeMajor21 (f : BitVec 6) (d a b : Name) : Decoded :=
  if f.extractLsb' 3 3 == 1#3 then chk (b == 0) (.xred (f.extractLsb' 0 3) d a)
  else   if f.extractLsb' 3 3 == 2#3 then chk (b == 0) (.xscan (f.extractLsb' 0 3) d a)
  else   if f.extractLsb' 4 2 == 2#2 then res true (.slideDn (f.extractLsb' 0 4) d a b)
  else   if f.extractLsb' 4 2 == 3#2 then res true (.slideUp (f.extractLsb' 0 4) d a b)
  else match f.toNat with
  | 1 => res true (.shfl d a b)
  | _ => .bad 2

/-- Major 0x16. -/
def decodeMajor22 (f : BitVec 6) (d a b : Name) : Decoded :=
  match f.toNat with
  | 1 => res ((d.extractLsb' 5 2) == 0) (.mcfg (d.extractLsb' 0 5) a b)
  | 2 => res ((a.extractLsb' 5 2) == 0 && b == 0) (.mrdc d (a.extractLsb' 0 5))
  | 3 => res ((d.extractLsb' 5 2) == 0) (.mld (d.extractLsb' 0 5) a b)
  | 4 => res ((d.extractLsb' 5 2) == 0) (.mst (d.extractLsb' 0 5) a b)
  | 8 => res (a == 0 && b == 0) (.macq d)
  | 9 => res (d == 0 && a == 0 && b == 0) .mrel
  | _ => .bad 2

/-- Major 0x17. -/
def decodeMajor23 (f : BitVec 6) (d a b : Name) : Decoded :=
  match f.toNat with
  | 1 => res (d == 0 && (a.extractLsb' 5 2) == 0 && (b.extractLsb' 5 2) == 0) (.mma (a.extractLsb' 0 5) (b.extractLsb' 0 5))
  | 16 => res (d == 0 && a == 0 && b == 0) .mzero
  | _ => .bad 2

/-- Major 0x18. -/
def decodeMajor24 (f : BitVec 6) (d a b : Name) : Decoded :=
  match f.toNat with
  | 1 => res ((d.extractLsb' 6 1) == 0 && a == 0 && b == 0) (.shiftout (d.extractLsb' 0 6))
  | 2 => res ((d.extractLsb' 6 1) == 0 && a == 0 && b == 0) (.shiftin (d.extractLsb' 0 6))
  | 3 => res ((d.extractLsb' 6 1) == 0 && a == 0 && b == 0) (.accclr (d.extractLsb' 0 6))
  | 4 => res true (.drainqBf16 d a b)
  | 5 => res true (.drainqE4m3 d a b)
  | 6 => res true (.drainqE5m2 d a b)
  | 7 => res true (.drainqE2m1 d a b)
  | _ => .bad 2

/-- Major 0x19. -/
def decodeMajor25 (f : BitVec 6) (d a b : Name) : Decoded :=
  match f.toNat with
  | 1 => res true (.cpy d a b)
  | 2 => res true (.cpym d a b)
  | 3 => res ((d.extractLsb' 6 1) == 0) (.cpyaOut (d.extractLsb' 0 6) a b)
  | 4 => res ((d.extractLsb' 6 1) == 0) (.cpyaIn (d.extractLsb' 0 6) a b)
  | 5 => res true (.cpynPut d a b)
  | 6 => res true (.cpynGet d a b)
  | _ => .bad 2

/-- Major 0x1a. -/
def decodeMajor26 (f : BitVec 6) (d a b : Name) : Decoded :=
  match f.toNat with
  | 1 => res (d == 0) (.binit a b)
  | 2 => res (d == 0) (.bexp a b)
  | 3 => res (d == 0) (.barr a b)
  | 4 => res true (.bwait d a b)
  | 5 => res ((d.extractLsb' 3 4) == 0) (.btest (d.extractLsb' 0 3) a b)
  | 8 => res (b == 0) (.stadv d a)
  | 16 => res ((a.extractLsb' 4 3) == 0 && b == 0) (.ringpushClaim d (a.extractLsb' 0 4))
  | 17 => res (d == 0 && (a.extractLsb' 4 3) == 0) (.ringpushFill (a.extractLsb' 0 4) b)
  | 18 => res ((a.extractLsb' 4 3) == 0 && b == 0) (.ringpopTake d (a.extractLsb' 0 4))
  | 19 => res (d == 0 && (a.extractLsb' 4 3) == 0) (.ringpopFree (a.extractLsb' 0 4) b)
  | 20 => res ((a.extractLsb' 4 3) == 0 && (b.extractLsb' 2 5) == 0) (.ringq d (a.extractLsb' 0 4) (b.extractLsb' 0 2))
  | 24 => res (b == 0) (.ringsub d a)
  | 25 => res (b == 0) (.ringsubIn d a)
  | 26 => res (b == 0) (.ringsubOut d a)
  | _ => .bad 2

/-- Major 0x1b. -/
def decodeMajor27 (f : BitVec 6) (d a b : Name) : Decoded :=
  match f.toNat with
  | 1 => res true (.spawn d a b)
  | 2 => res true (.yput d a b)
  | 3 => res (b == 0) (.jnew d a)
  | 4 => res true (.jdec d a b)
  | 5 => res (b == 0) (.ycancel d a)
  | _ => .bad 2

/-- Major 0x1c. -/
def decodeMajor28 (f : BitVec 6) (d a b : Name) : Decoded :=
  match f.toNat with
  | 1 => res (b == 0) (.kvlook d a)
  | 2 => res (b == 0) (.kvalloc d a)
  | 3 => res (b == 0) (.kvfree d a)
  | 4 => res true (.kvshare d a b)
  | _ => .bad 2

/-- Major 0x1d. -/
def decodeMajor29 (f : BitVec 6) (d a b : Name) : Decoded :=
  match f.toNat with
  | 1 => res (d == 0 && (a.extractLsb' 2 5) == 0) (.skset (a.extractLsb' 0 2) b)
  | 2 => res (d == 0 && (a.extractLsb' 2 5) == 0) (.sieve (a.extractLsb' 0 2) b)
  | 3 => res (a == 0) (.svlist d b)
  | _ => .bad 2

/-- Major 0x1e. -/
def decodeMajor30 (f : BitVec 6) (d a b : Name) : Decoded :=
  match f.toNat with
  | 1 => res (b == 0) (.dfopen d a)
  | 2 => res (b == 0) (.dfmark d a)
  | 3 => res (b == 0) (.dfkeep d a)
  | 4 => res (b == 0) (.dfdrop d a)
  | 5 => res (b == 0) (.dfq d a)
  | _ => .bad 2

/-- Majors 0x02 and 0x03, format J (R87, R88, R140, R141). -/
def decodeJ (calls : Bool) (p : BitVec 3) (s : BitVec 1) (o : BitVec 23) : Decoded :=
  if calls then
    match p.toNat with
    | 0 => res (s == 0) (.jmp o)
    | 1 => res (s == 0) (.call o)
    | _ => .bad 2
  else if s == 0 then .ok (.b p o) else .ok (.bn p o)

/-- Major 0x04, format G (R87, R144, R193). -/
def decodeG (k : BitVec 2) (e : Name) (s : BitVec 1) (c : BitVec 5) (z : BitVec 12) : Decoded :=
  match k.toNat with
  | 0 => res (e.extractLsb' 3 4 == 0 && z == 0)
      (if s == 0 then .guard (e.extractLsb' 0 3) c else .guardn (e.extractLsb' 0 3) c)
  | 1 => res (e.extractLsb' 3 4 == 0 && s == 0 && z == 0) (.sguard (e.extractLsb' 0 3) c)
  | _ => .bad 4

/-- Format A by its major (R94). -/
def decodeA (m : Nat) (f : BitVec 6) (d a b : Name) : Decoded :=
  match m with
  | 0x00 => decodeMajor0 f d a b
  | 0x05 => decodeMajor5 f d a b
  | 0x06 => decodeMajor6 f d a b
  | 0x07 => decodeMajor7 f d a b
  | 0x0B => decodeMajor11 f d a b
  | 0x0E => decodeMajor14 f d a b
  | 0x0F => decodeMajor15 f d a b
  | 0x10 => decodeMajor16 f d a b
  | 0x11 => decodeMajor17 f d a b
  | 0x12 => decodeMajor18 f d a b
  | 0x13 => decodeMajor19 f d a b
  | 0x14 => decodeMajor20 f d a b
  | 0x15 => decodeMajor21 f d a b
  | 0x16 => decodeMajor22 f d a b
  | 0x17 => decodeMajor23 f d a b
  | 0x18 => decodeMajor24 f d a b
  | 0x19 => decodeMajor25 f d a b
  | 0x1A => decodeMajor26 f d a b
  | 0x1B => decodeMajor27 f d a b
  | 0x1C => decodeMajor28 f d a b
  | 0x1D => decodeMajor29 f d a b
  | 0x1E => decodeMajor30 f d a b
  | _ => .bad 1

/-- The decoder, total on every word: the all-zero word (check 2), major 0x1F (check 3), an
unassigned func (check 4), a reserved guard kind (check 7), a nonzero reserved field (check 8). -/
def decode (w : Word) : Decoded :=
  if w = 0 then .bad 0 else
  match (w.extractLsb' 27 5).toNat with
  | 0x01 => decodeMajor1 (w.extractLsb' 24 3) (w.extractLsb' 17 7) (w.extractLsb' 10 7) (w.extractLsb' 0 10)
  | 0x02 => decodeJ false (w.extractLsb' 24 3) (w.extractLsb' 23 1) (w.extractLsb' 0 23)
  | 0x03 => decodeJ true (w.extractLsb' 24 3) (w.extractLsb' 23 1) (w.extractLsb' 0 23)
  | 0x04 => decodeG (w.extractLsb' 25 2) (w.extractLsb' 18 7) (w.extractLsb' 17 1) (w.extractLsb' 12 5) (w.extractLsb' 0 12)
  | 0x08 => decodeMajor8 (w.extractLsb' 24 3) (w.extractLsb' 17 7) (w.extractLsb' 10 7) (w.extractLsb' 0 10)
  | 0x09 => decodeMajor9 (w.extractLsb' 26 1) (w.extractLsb' 19 7) (w.extractLsb' 0 19)
  | 0x0A => decodeMajor10 (w.extractLsb' 24 3) (w.extractLsb' 17 7) (w.extractLsb' 10 7) (w.extractLsb' 0 10)
  | 0x0C => decodeMajor12 (w.extractLsb' 24 3) (w.extractLsb' 17 7) (w.extractLsb' 10 7) (w.extractLsb' 0 10)
  | 0x0D => decodeMajor13 (w.extractLsb' 24 3) (w.extractLsb' 17 7) (w.extractLsb' 10 7) (w.extractLsb' 0 10)
  | m => decodeA m (w.extractLsb' 21 6) (w.extractLsb' 14 7) (w.extractLsb' 7 7) (w.extractLsb' 0 7)

/-- The instruction a word holds, for the words that hold one. -/
def Decoded.instr? : Decoded → Option Instr
  | .ok i => some i
  | .bad _ => none

/-- The instruction that `nbits` bits of the opcode table's numbering hold: the little-endian word
whose low bits they are, the bits above being zero. -/
def decodeTableWord (nbits w : Nat) : Option Instr :=
  (decode (BitVec.ofNat 32 (w % 2 ^ nbits))).instr?

/-- Format A (R87). -/
def packA (m : BitVec 5) (f : BitVec 6) (d a b : Name) : Word := m ++ f ++ d ++ a ++ b
/-- Formats I and M (R87). -/
def packI (m : BitVec 5) (f : BitVec 3) (d a : Name) (i : BitVec 10) : Word := m ++ f ++ d ++ a ++ i
/-- Format L (R87). -/
def packL (m : BitVec 5) (f : BitVec 1) (d : Name) (i : BitVec 19) : Word := m ++ f ++ d ++ i
/-- Format J (R87). -/
def packJ (m : BitVec 5) (p : BitVec 3) (s : BitVec 1) (o : BitVec 23) : Word := m ++ p ++ s ++ o
/-- Format G (R87). -/
def packG (m : BitVec 5) (k : BitVec 2) (e : Name) (s : BitVec 1) (c : BitVec 5) (z : BitVec 12) : Word :=
  m ++ k ++ e ++ s ++ c ++ z

/-- The word of an instruction (R87 and the encoding table of its chapter); an operation or event
has no word, and the encoder gives the all-zero word, which is never an instruction. -/
def encode (i : Instr) : Word :=
  match i with

  | .load => 0
  | .patch => 0
  | .unload => 0
  | .launch => 0
  | .cancel => 0
  | .usage => 0
  | .attest => 0
  | .status => 0
  | .jsig => 0
  | .move => 0
  | .partcfg => 0
  | .acctcfg => 0
  | .fwupd => 0
  | .unknownRequest => 0
  | .droppedPacket => 0
  | .rmaPut => 0
  | .rmaGet => 0
  | .rmaAtomic => 0
  | .boot => 0
  | .i3cJournalRead => 0
  | .i3cFirmwareWrite => 0
  | .i3cReset => 0
  | .roomReport => 0
  | .usageInterval => 0
  | .sectionAdvertise => 0
  | .migrationSend => 0
  | .migrationReceive => 0
  | .migrationReply => 0
  | .jointDecrement => 0
  | .memberRegister => 0
  | .yputRequest => 0
  | .cancelMark => 0
  | .memberCancelStop => 0
  | .dispatch => 0
  | .redispatch => 0
  | .preempt => 0
  | .memberStop => 0
  | .resume => 0
  | .regionRestore => 0
  | .runLimit => 0
  | .gatheringRelease => 0
  | .phaseBoundary => 0
  | .joinHoldTimeout => 0
  | .pauseWindowClose => 0
  | .coreClockGate => 0
  | .coreWake => 0
  | .wakeEnd => 0
  | .tagBarrierRelease => 0
  | .bentCreate => 0
  | .bentRetire => 0
  | .asyncTrapTake => 0
  | .pageFaultService => 0
  | .replyLand => 0
  | .copyStart => 0
  | .copyComplete => 0
  | .copyFailureEnd => 0
  | .scheduleEntryStart => 0
  | .barrierArrival => 0
  | .mldExecute => 0
  | .mstExecute => 0
  | .mmaExecute => 0
  | .mzeroExecute => 0
  | .shiftoutExecute => 0
  | .shiftinExecute => 0
  | .accclrExecute => 0
  | .drainqExecute => 0
  | .matrixCommandFailure => 0
  | .sksetExecute => 0
  | .sieveExecute => 0
  | .sieveCommandFailure => 0
  | .infeedTile => 0
  | .outfeedTile => 0
  | .mapFillComplete => 0
  | .mapFillFail => 0
  | .kvUnitStep => 0
  | .pageEvict => 0
  | .pagePromote => 0
  | .entryPoison => 0
  | .translationInvalidate => 0
  | .heatSweep => 0
  | .memberQuiesced => 0
  | .retireRelease => 0
  | .usageFlashWrite => 0
  | .snapshotNymesque => 0
  | .snapshotCollect => 0
  | .nop => packA 0#5 1#6 0#7 0#7 0#7
  | .exit => packA 0#5 2#6 0#7 0#7 0#7
  | .yield => packA 0#5 3#6 0#7 0#7 0#7
  | .bi a b => packA 0#5 4#6 0#7 a b
  | .calli a b => packA 0#5 5#6 0#7 a b
  | .ret a => packA 0#5 6#6 0#7 a 0#7
  | .pause a i => packI 1#5 0#3 0#7 a i
  | .b p o => packJ 2#5 p 0#1 o
  | .bn p o => packJ 2#5 p 1#1 o
  | .jmp o => packJ 3#5 0#3 0#1 o
  | .call o => packJ 3#5 1#3 0#1 o
  | .guard p c => packG 4#5 0#2 (0#4 ++ p) 0#1 c 0#12
  | .guardn p c => packG 4#5 0#2 (0#4 ++ p) 1#1 c 0#12
  | .crewnew d a => packA 5#5 1#6 d a 0#7
  | .join d a => packA 5#5 2#6 d a 0#7
  | .leave d => packA 5#5 3#6 d 0#7 0#7
  | .rejoin a => packA 5#5 4#6 0#7 a 0#7
  | .crewq d a s => packA 5#5 5#6 d a (0#5 ++ s)
  | .ballot d a p => packA 5#5 6#6 d a (0#4 ++ p)
  | .frame a b => packA 6#5 1#6 0#7 a b
  | .frameend => packA 6#5 2#6 0#7 0#7 0#7
  | .fbreak => packA 6#5 3#6 0#7 0#7 0#7
  | .gseed s a => packA 6#5 4#6 (0#4 ++ s) a 0#7
  | .gcollect d s => packA 6#5 5#6 d 0#7 (0#4 ++ s)
  | .gpres p a => packA 6#5 6#6 (0#4 ++ p) a 0#7
  | .sguard s c => packG 4#5 1#2 (0#4 ++ s) 0#1 c 0#12
  | .add d a b => packA 7#5 1#6 d a b
  | .sub d a b => packA 7#5 2#6 d a b
  | .mul d a b => packA 7#5 3#6 d a b
  | .mulh d a b => packA 7#5 4#6 d a b
  | .mulhu d a b => packA 7#5 5#6 d a b
  | .mulw d a b => packA 7#5 6#6 d a b
  | .div d a b => packA 7#5 7#6 d a b
  | .divu d a b => packA 7#5 8#6 d a b
  | .rem d a b => packA 7#5 9#6 d a b
  | .remu d a b => packA 7#5 10#6 d a b
  | .and d a b => packA 7#5 11#6 d a b
  | .or d a b => packA 7#5 12#6 d a b
  | .xor d a b => packA 7#5 13#6 d a b
  | .andn d a b => packA 7#5 14#6 d a b
  | .shl d a b => packA 7#5 15#6 d a b
  | .shr d a b => packA 7#5 16#6 d a b
  | .sra d a b => packA 7#5 17#6 d a b
  | .rol d a b => packA 7#5 18#6 d a b
  | .min d a b => packA 7#5 19#6 d a b
  | .max d a b => packA 7#5 20#6 d a b
  | .minu d a b => packA 7#5 21#6 d a b
  | .maxu d a b => packA 7#5 22#6 d a b
  | .clz d a => packA 7#5 23#6 d a 0#7
  | .popc d a => packA 7#5 24#6 d a 0#7
  | .brev d a => packA 7#5 25#6 d a 0#7
  | .add64 d a b => packA 7#5 26#6 d a b
  | .sub64 d a b => packA 7#5 27#6 d a b
  | .sel k d a b => packA 7#5 (4#3 ++ k) d a b
  | .cmp c p a b => packA 7#5 (6#3 ++ c) (0#4 ++ p) a b
  | .addi d a i => packI 8#5 0#3 d a i
  | .andi d a i => packI 8#5 1#3 d a i
  | .ori d a i => packI 8#5 2#3 d a i
  | .xori d a i => packI 8#5 3#3 d a i
  | .shli d a n => packI 8#5 4#3 d a (0#5 ++ n)
  | .shri d a n => packI 8#5 5#3 d a (0#5 ++ n)
  | .srai d a n => packI 8#5 6#3 d a (0#5 ++ n)
  | .muli d a i => packI 8#5 7#3 d a i
  | .li d i => packL 9#5 0#1 d i
  | .lih d i => packL 9#5 1#1 d i
  | .cmpi c p a i => packI 10#5 c (0#4 ++ p) a i
  | .pand d a b => packA 11#5 1#6 (0#4 ++ d) (0#4 ++ a) (0#4 ++ b)
  | .por d a b => packA 11#5 2#6 (0#4 ++ d) (0#4 ++ a) (0#4 ++ b)
  | .pxor d a b => packA 11#5 3#6 (0#4 ++ d) (0#4 ++ a) (0#4 ++ b)
  | .pnot d a => packA 11#5 4#6 (0#4 ++ d) (0#4 ++ a) 0#7
  | .pget d => packA 11#5 5#6 d 0#7 0#7
  | .pset a => packA 11#5 6#6 0#7 a 0#7
  | .wbase a => packA 11#5 7#6 0#7 a 0#7
  | .wbaseq d => packA 11#5 8#6 d 0#7 0#7
  | .mfs d s => packA 11#5 9#6 d s 0#7
  | .mts s b => packA 11#5 10#6 0#7 s b
  | .ldB d b o => packI 12#5 0#3 d b o
  | .ldBs d b o => packI 12#5 1#3 d b o
  | .ldH d b o => packI 12#5 2#3 d b o
  | .ldHs d b o => packI 12#5 3#3 d b o
  | .ldW d b o => packI 12#5 4#3 d b o
  | .ldD d b o => packI 12#5 5#3 d b o
  | .ldQ d b o => packI 12#5 6#3 d b o
  | .prfm h b o => packI 12#5 7#3 (0#5 ++ h) b o
  | .stB d b o => packI 13#5 0#3 d b o
  | .stH d b o => packI 13#5 1#3 d b o
  | .stW d b o => packI 13#5 2#3 d b o
  | .stD d b o => packI 13#5 3#3 d b o
  | .stQ d b o => packI 13#5 4#3 d b o
  | .ldxB d a b => packA 14#5 1#6 d a b
  | .ldxBs d a b => packA 14#5 2#6 d a b
  | .ldxH d a b => packA 14#5 3#6 d a b
  | .ldxHs d a b => packA 14#5 4#6 d a b
  | .ldxW d a b => packA 14#5 5#6 d a b
  | .ldxD d a b => packA 14#5 6#6 d a b
  | .ldxQ d a b => packA 14#5 7#6 d a b
  | .stxB d a b => packA 14#5 9#6 d a b
  | .stxH d a b => packA 14#5 10#6 d a b
  | .stxW d a b => packA 14#5 11#6 d a b
  | .stxD d a b => packA 14#5 12#6 d a b
  | .stxQ d a b => packA 14#5 13#6 d a b
  | .aptest d a => packA 14#5 16#6 d a 0#7
  | .apcvtOff d a => packA 14#5 17#6 d a 0#7
  | .apcvtLoc d a => packA 14#5 18#6 d a 0#7
  | .apcvtClu d a => packA 14#5 19#6 d a 0#7
  | .mapset d a b => packA 14#5 24#6 d a b
  | .maprel a => packA 14#5 25#6 0#7 a 0#7
  | .mapflush a => packA 14#5 26#6 0#7 a 0#7
  | .mapfill a b => packA 14#5 27#6 0#7 a b
  | .mmovW a b => packA 14#5 28#6 0#7 a b
  | .mswpW a b => packA 14#5 29#6 0#7 a b
  | .aadd d a m => packA 15#5 1#6 d a m.bits
  | .amin d a m => packA 15#5 2#6 d a m.bits
  | .amax d a m => packA 15#5 3#6 d a m.bits
  | .aand d a m => packA 15#5 4#6 d a m.bits
  | .aor d a m => packA 15#5 5#6 d a m.bits
  | .axor d a m => packA 15#5 6#6 d a m.bits
  | .axchg d a m => packA 15#5 7#6 d a m.bits
  | .acas d a m => packA 15#5 8#6 d a m.bits
  | .acas64 d a m => packA 15#5 9#6 d a m.bits
  | .afadd d a m => packA 15#5 10#6 d a m.bits
  | .afmax d a m => packA 15#5 11#6 d a m.bits
  | .phase => packA 16#5 1#6 0#7 0#7 0#7
  | .fence x y => packA 16#5 2#6 0#7 (0#4 ++ x) (0#4 ++ y)
  | .tbar t b => packA 16#5 8#6 0#7 (0#4 ++ t) b
  | .tbarP t b => packA 16#5 9#6 0#7 (0#4 ++ t) b
  | .tbara d t b => packA 16#5 10#6 d (0#4 ++ t) b
  | .tbaraP d t b => packA 16#5 11#6 d (0#4 ++ t) b
  | .tbarw t b => packA 16#5 12#6 0#7 (0#4 ++ t) b
  | .tbarwP t b => packA 16#5 13#6 0#7 (0#4 ++ t) b
  | .monitor d a => packA 16#5 16#6 d a 0#7
  | .mwaitm d a => packA 16#5 17#6 d a 0#7
  | .fadd f m d a b => packA 17#5 (0#2 ++ f ++ m) d a b
  | .fsub f m d a b => packA 17#5 (1#2 ++ f ++ m) d a b
  | .fmul f m d a b => packA 17#5 (2#2 ++ f ++ m) d a b
  | .ffma f m d a b => packA 17#5 (3#2 ++ f ++ m) d a b
  | .fmin f d a b => packA 18#5 (0#4 ++ f) d a b
  | .fmax f d a b => packA 18#5 (1#4 ++ f) d a b
  | .fneg f d a => packA 18#5 (2#4 ++ f) d a 0#7
  | .fabs f d a => packA 18#5 (3#4 ++ f) d a 0#7
  | .frcp d a => packA 18#5 16#6 d a 0#7
  | .frsq d a => packA 18#5 20#6 d a 0#7
  | .fexp2 d a => packA 18#5 24#6 d a 0#7
  | .flog2 d a => packA 18#5 28#6 d a 0#7
  | .fcmp c p a b => packA 18#5 (4#3 ++ c) (0#4 ++ p) a b
  | .cvt m d a k j => packA 19#5 (0#4 ++ m) d a (k ++ j)
  | .cvts m d a k j => packA 19#5 (1#4 ++ m) d a (k ++ j)
  | .cvtt d a k j => packA 19#5 8#6 d a (k ++ j)
  | .bscale j d a b => packA 19#5 (4#4 ++ j) d a b
  | .padd16s d a b => packA 20#5 1#6 d a b
  | .psub16s d a b => packA 20#5 2#6 d a b
  | .pmul16 d a b => packA 20#5 3#6 d a b
  | .pmax16 d a b => packA 20#5 4#6 d a b
  | .pmin16 d a b => packA 20#5 5#6 d a b
  | .pmac16 d a b => packA 20#5 6#6 d a b
  | .shrrsS16 d a b => packA 20#5 7#6 d a b
  | .shrrsS8 d a b => packA 20#5 8#6 d a b
  | .shrrsN8 d a b => packA 20#5 9#6 d a b
  | .satrd d => packA 20#5 12#6 d 0#7 0#7
  | .satcl => packA 20#5 13#6 0#7 0#7 0#7
  | .shfl d a b => packA 21#5 1#6 d a b
  | .xred o d a => packA 21#5 (1#3 ++ o) d a 0#7
  | .xscan o d a => packA 21#5 (2#3 ++ o) d a 0#7
  | .slideDn k d a b => packA 21#5 (2#2 ++ k) d a b
  | .slideUp k d a b => packA 21#5 (3#2 ++ k) d a b
  | .mcfg d a b => packA 22#5 1#6 (0#2 ++ d) a b
  | .mrdc d a => packA 22#5 2#6 d (0#2 ++ a) 0#7
  | .mld d a b => packA 22#5 3#6 (0#2 ++ d) a b
  | .mst d a b => packA 22#5 4#6 (0#2 ++ d) a b
  | .macq d => packA 22#5 8#6 d 0#7 0#7
  | .mrel => packA 22#5 9#6 0#7 0#7 0#7
  | .mma a b => packA 23#5 1#6 0#7 (0#2 ++ a) (0#2 ++ b)
  | .mzero => packA 23#5 16#6 0#7 0#7 0#7
  | .shiftout d => packA 24#5 1#6 (0#1 ++ d) 0#7 0#7
  | .shiftin d => packA 24#5 2#6 (0#1 ++ d) 0#7 0#7
  | .accclr d => packA 24#5 3#6 (0#1 ++ d) 0#7 0#7
  | .drainqBf16 d a b => packA 24#5 4#6 d a b
  | .drainqE4m3 d a b => packA 24#5 5#6 d a b
  | .drainqE5m2 d a b => packA 24#5 6#6 d a b
  | .drainqE2m1 d a b => packA 24#5 7#6 d a b
  | .cpy d a b => packA 25#5 1#6 d a b
  | .cpym d a b => packA 25#5 2#6 d a b
  | .cpyaOut d a b => packA 25#5 3#6 (0#1 ++ d) a b
  | .cpyaIn d a b => packA 25#5 4#6 (0#1 ++ d) a b
  | .cpynPut d a b => packA 25#5 5#6 d a b
  | .cpynGet d a b => packA 25#5 6#6 d a b
  | .binit a b => packA 26#5 1#6 0#7 a b
  | .bexp a b => packA 26#5 2#6 0#7 a b
  | .barr a b => packA 26#5 3#6 0#7 a b
  | .bwait d a b => packA 26#5 4#6 d a b
  | .btest d a b => packA 26#5 5#6 (0#4 ++ d) a b
  | .stadv d a => packA 26#5 8#6 d a 0#7
  | .ringpushClaim d a => packA 26#5 16#6 d (0#3 ++ a) 0#7
  | .ringpushFill a b => packA 26#5 17#6 0#7 (0#3 ++ a) b
  | .ringpopTake d a => packA 26#5 18#6 d (0#3 ++ a) 0#7
  | .ringpopFree a b => packA 26#5 19#6 0#7 (0#3 ++ a) b
  | .ringq d a s => packA 26#5 20#6 d (0#3 ++ a) (0#5 ++ s)
  | .ringsub d a => packA 26#5 24#6 d a 0#7
  | .ringsubIn d a => packA 26#5 25#6 d a 0#7
  | .ringsubOut d a => packA 26#5 26#6 d a 0#7
  | .spawn d a b => packA 27#5 1#6 d a b
  | .yput d a b => packA 27#5 2#6 d a b
  | .jnew d a => packA 27#5 3#6 d a 0#7
  | .jdec d a b => packA 27#5 4#6 d a b
  | .ycancel d a => packA 27#5 5#6 d a 0#7
  | .kvlook d a => packA 28#5 1#6 d a 0#7
  | .kvalloc d a => packA 28#5 2#6 d a 0#7
  | .kvfree d a => packA 28#5 3#6 d a 0#7
  | .kvshare d a b => packA 28#5 4#6 d a b
  | .skset a b => packA 29#5 1#6 0#7 (0#5 ++ a) b
  | .sieve a b => packA 29#5 2#6 0#7 (0#5 ++ a) b
  | .svlist d b => packA 29#5 3#6 d 0#7 b
  | .dfopen d a => packA 30#5 1#6 d a 0#7
  | .dfmark d a => packA 30#5 2#6 d a 0#7
  | .dfkeep d a => packA 30#5 3#6 d a 0#7
  | .dfdrop d a => packA 30#5 4#6 d a 0#7
  | .dfq d a => packA 30#5 5#6 d a 0#7
  | .trap a c => packA 0#5 32#6 0#7 a (0#1 ++ c)
  | .rett a => packA 0#5 33#6 0#7 a 0#7
  | .mfx d a => packA 0#5 34#6 d (0#4 ++ a) 0#7
  | .mtx a b => packA 0#5 35#6 0#7 (0#4 ++ a) b
  | .snap d a => packA 0#5 36#6 d a 0#7
  | .bkpt b => packA 0#5 37#6 0#7 0#7 b
  | .fltq d => packA 0#5 38#6 d 0#7 0#7
  | .powerLoss => 0
  | .linkRetrain => 0
  | .correctableError => 0
  | .writePerformedAtHome => 0
  | .translationWalkEnd => 0
  | .tagBarrierArrival => 0

end Sys2Proof
end

