-- ==== Sys2Proof/Machine/State.lean ====
section
/-! DEFINITION. The state of the H9 as plain data: everything spec/ names, one structure per unit, and
the state right after reset. Lists are keyed by the identifiers in their records; maps from numbers to
bits are lists of pairs with rising keys in which a value of zero is never listed. -/
namespace Sys2Proof.Machine

open Sys2Proof

/-- A map from numbers to bits, zero where nothing is listed. A memory is a `Map 8` (`Host.Cell`). -/
abbrev Map (w : Nat) := List (Nat × BitVec w)
/-- A byte-addressed memory, zero where nothing is listed. -/
abbrev Memory := List Host.Cell
/-- A vector clock of the happens-before order (R355): agents with the epoch known of each. -/
abbrev Clock := List (Nat × Nat)

/-- A location (R354): a byte of device memory (space 0, a physical address) or of a scratchpad
(space m + 1, a local offset of member m). -/
structure Loc where
  space : Nat
  off : Nat
  deriving DecidableEq, Repr

/-- Access paths (R353). -/
inductive Path where
  | t | c | m | i | s | n
  deriving DecidableEq, Repr

/-! ## Threads (R120) -/

/-- An open guard run (R97, R421): its kind, its stage when it is a stage run, the words left. -/
structure Run where
  stageKind : Bool
  stage : Nat
  left : Nat
  deriving DecidableEq, Repr

/-- A progress record (R316). -/
structure Progress where
  cause : Nat
  under : Nat
  pc : Word
  addr : DWord
  rows : Nat
  bytes : Nat
  shape : Word
  dest : Nat
  deriving DecidableEq, Repr

/-- An asynchronous cause waiting for a thread (R419). -/
structure Pending where
  cause : Nat
  addr : DWord
  progress : Option Progress
  deferred : Bool
  deriving DecidableEq, Repr

/-- Where a result word lands: an allotment register, a girt slot of a bent lane, or nowhere. -/
inductive Slot where
  | drop
  | reg (index : Nat)
  | girt (frame bent slot lane : Nat)
  deriving DecidableEq, Repr

/-- The combinations of the ATOM major (R377). -/
inductive AtomKind where
  | add | smin | smax | band | bor | bxor | xchg | cas | cas64 | fadd | fmax
  deriving DecidableEq, Repr

/-- A path T access that an instruction has asked for and whose checks may still be running (R86). -/
inductive MemOp where
  | load (addr : DWord) (size : Nat) (signed : Bool) (dst : List Slot)
  | store (addr : DWord) (data : List Byte)
  | atomic (addr : DWord) (kind : AtomKind) (operand compare : DWord) (m : AtomMod) (dst : List Slot)
  | table (addr : DWord) (index : Word) (call : Bool)
  | monitor (addr : DWord) (dst : List Slot)
  | mmov (x1 x2 : DWord)
  | mswp (x1 x2 : DWord)
  | flush (off : Nat) (release : Bool)
  deriving DecidableEq, Repr

/-- What a crew goes on to when a phase's publication is complete (R375, R384, R405). -/
inductive AfterPhase where
  | boundary
  | arrive (tag count : Nat) (d : Option (List Slot)) (waits : Bool)
  | keep (seq w k : Nat) (d : List Slot)
  deriving DecidableEq, Repr

/-- What a thread waits for (R122). `word` is a word that has issued and waits for its own condition;
`covered` is the first word of a run whose live prefix the thread has evaluated, with the PC, the open runs and the
stage it had come to before the prefix, which issues in the slot of the word (R97);
`walk` is fetch suspension (R86), and `fill` that of an access which waits for a line of a member, by the line's local
offset in units of 4 KiB (R217); `parked` is a page fault (R213). -/
inductive Wait where
  | none
  | word
  | covered (pc : Word) (runs : List Run) (reached : Nat)
  | gather (mask : DWord)
  | reply (id : Nat)
  | walk (op : MemOp)
  | fill (op : MemOp) (member line : Nat)
  | parked (op : MemOp) (page : Nat)
  | publish (next : AfterPhase)
  | arrival (id : Nat)
  | tag (tag gen : Nat) (view : Bool)
  | frame (id : Nat)
  | held (since : DWord)
  | ended
  deriving DecidableEq, Repr

/-- An armed monitor (R386). -/
structure Monitor where
  loc : Loc
  hit : Bool
  deriving DecidableEq, Repr

/-- A thread (R120, R420). `uid` is the model's own name for it, never reused; `issuedAt` is when its word issued
(R126), `hitCloses` says that its pause window is MWAITM's, which a hit closes (R387), `reached` is the highest stage
that it has come to in its bent (R183), and `stageClk` holds by stage what the lanes of the bent before had done when
they passed it (R190). Registers are the allotment registers; bit 0 of
`preds` is p0 and reads true. -/
structure Thread where
  uid : Nat
  tid : Nat
  core : Nat
  member : Nat
  crew : Nat
  lane : Nat
  pc : Word
  preds : BitVec 8
  wb : Nat
  regs : Map 32
  runs : List Run
  join : Option Word
  pause : Option DWord
  hitCloses : Bool
  sat : Bool
  mark : Word
  seeds : Map 32
  monitor : Option Monitor
  pendq : List Pending
  latched : Option Progress
  marks : List (Nat × Nat)
  xpc : Word
  xaddr : DWord
  xcause : Word
  xstat : Word
  busy : Bool
  traps : Nat
  wait : Wait
  issuedAt : DWord
  reached : Nat
  stageClk : List (Nat × Clock)
  clk : Clock
  issued : List (Path × Clock)
  fenceIds : List (Path × List Nat)
  fenceClk : List (Path × Clock)
  engClk : Clock
  deriving DecidableEq, Repr

/-- A crew (R130). `cid` is the model's own name for it, never reused; the id a program sees is
made of `gen` and `index`. A bent carries its frame and number. `did` is what its ended threads and the
retired bents of its frames have done (R359). -/
structure Crew where
  cid : Nat
  core : Nat
  gen : Nat
  index : Nat
  member : Nat
  width : Nat
  bent : Option (Nat × Nat)
  held : Bool
  did : Clock
  deriving DecidableEq, Repr

/-! ## Frames (R178 to R192) -/

/-- A bent: its latched stages (R182), the highest stage each lane has come to (R183), the lanes that
ended (R187), and by stage what its lanes had done when they passed it (R190). -/
structure Bent where
  k : Nat
  crew : Nat
  latched : List (Nat × Bool)
  top : List (Nat × Nat)
  ended : List Nat
  passed : List (Nat × Clock)
  deriving DecidableEq, Repr

/-- A girt value of bent `k` with its peg and written bit (R184), and what its writer had done (R190). -/
structure Girt where
  k : Nat
  slot : Nat
  lane : Nat
  value : Word
  peg : Bool
  written : Bool
  clk : Clock
  deriving DecidableEq, Repr

/-- The frame controller's state (R192); `slots` are the thread slots that it has reserved (R181), `clk` is what happened before FRAME (R366), `did` what its retired
bents did on path T, and `last` the stages that the last bent to retire passed (R190). -/
structure Frame where
  fid : Nat
  crew : Nat
  member : Nat
  core : Nat
  n : Nat
  d : Nat
  s : Nat
  p : Word
  e : Word
  lanes : List Nat
  slots : List Nat
  next : Nat
  retired : Nat
  bents : List Bent
  ring : List Girt
  clk : Clock
  did : Clock
  last : List (Nat × Clock)
  deriving DecidableEq, Repr

/-! ## Members (R24, R50, R63, R70) -/

/-- A tile operand entry (R24). -/
structure TileOperand where
  base : DWord
  rows : Nat
  cols : Nat
  stride : Nat
  kind : Byte
  hint : Byte
  deriving DecidableEq, Repr

/-- A launch record or member template (R50). -/
structure LaunchRec where
  container : Word
  function : Word
  version : Word
  entry : Word
  cls : Nat
  width : Nat
  regs : Nat
  scratch : Nat
  acc : Nat
  tiles : Nat
  tags : Nat
  rings : Nat
  depth : Nat
  cqcrew : Nat
  spcrews : Nat
  carrypred : Byte
  spslots : Nat
  flags : Nat
  members : Nat
  gate : Word
  done : Word
  carry : BitVec 128
  args : List Word
  schedbase : DWord
  schedcount : Nat
  runlimit : Nat
  replytag : DWord
  operands : List TileOperand
  resOk : Bool
  deriving DecidableEq, Repr

/-- Member states (R63). -/
inductive MState where
  | gated | ready | running | parked | suspended | done | cancelled
  | moving (was : Bool)
  deriving DecidableEq, Repr

/-- A phase record's lane (R70): the carried names, the predicates and the window base. -/
structure PhaseLane where
  lane : Nat
  names : List (Nat × Word)
  preds : BitVec 8
  wb : Nat
  deriving DecidableEq, Repr

/-- A phase record's content (R70), less what the member's descriptor holds. -/
structure PhaseRec where
  pc : Word
  width : Nat
  lanes : List PhaseLane
  deriving DecidableEq, Repr

/-- A static schedule entry (R54) with its progress. -/
structure SchedEntry where
  dst : DWord
  src : DWord
  rowbytes : Nat
  rows : Nat
  dpitch : Nat
  spitch : Nat
  eflags : Nat
  barrier : Nat
  started : Bool
  complete : Bool
  clk : Clock
  deriving DecidableEq, Repr

/-- The access that started a fill, whose path the fill is on (R353): the fill's own number, the access's agent and
what happens before it, its core, `%tid` and path. -/
structure Filler where
  id : Nat
  agent : Nat
  clk : Clock
  core : Nat
  tid : Nat
  path : Path
  deriving DecidableEq, Repr

/-- The state of a line of a mapped region (R217); an unlisted line is Invalid. -/
inductive Line where
  | filling (cause : Filler)
  | clean
  | dirty (sectors : BitVec 64)
  deriving DecidableEq, Repr

/-- A mapped region (R216); `clk` is what happens before every access through it: the write-backs of its member's
saves (R370). `away` are the accesses that were made at its bound range while it was
diverted, each as an agent and its epoch: a later fill brings them back (R371, R432). -/
structure Region where
  off : Nat
  units : Nat
  base : DWord
  writable : Bool
  lines : List (Nat × Line)
  clk : Clock
  away : Clock
  deriving DecidableEq, Repr

/-- Ring slot states (R310). -/
inductive RingSlot where
  | free | claimed | committed | filled | held | released
  deriving DecidableEq, Repr

/-- A configured ring (R309, R312); its slots carry their state and what their last change published. `holders` are
the thread, copy or subscription that claimed or took a slot last, and `past` what has been done with it, which comes
before what its holder does there (R311). -/
structure Ring where
  num : Nat
  config : Word
  base : Nat
  bytes : Nat
  copyProd : Bool
  infeed : Bool
  outfeed : Bool
  slots : List (RingSlot × Clock)
  holders : List (Nat × Nat)
  past : List (Nat × Clock)
  claim : Nat
  take : Nat
  deriving DecidableEq, Repr

/-- States of a diverted region (R432). -/
inductive Divert where
  | diverting | restoring | direct | released
  deriving DecidableEq, Repr

/-- Why a member's threads are stopping (R74, R76, R81); `saving` is a pre-emption whose threads have all
stopped (R428). -/
inductive Stop where
  | none | preempt | saving | cancel | limit
  deriving DecidableEq, Repr

/-- A member (R27, R63): its descriptor, its place in the yard and what it holds on a core. `ep` is the
endpoint its completion is reported to; `onCore` says that a core is its own, from its dispatch to its
park or release; `tids` are the thread slots of its pool
(R121), `billed` is when they were last charged (R47); `clk` is what happens before it, and
`did` what its ended threads and commands have done; `savedCells` and `savedOwner` are the array's cells
and owning crew while it is away (R283, R429); `freed` are the scratchpad units that its retirement has
released, `retire` the last step of R471 from 6 on that it has taken, and `decremented` says that step 7
decremented its done counter. -/
structure Member where
  id : Nat
  job : DWord
  acct : Nat
  part : Nat
  prio : Nat
  index : Nat
  container : Word
  version : Nat
  desc : LaunchRec
  mask : Word
  ep : Nat
  byYput : Bool
  st : MState
  sect : Nat
  registered : Bool
  since : DWord
  firstSince : Option DWord
  skips : Nat
  pinned : Bool
  moved : Bool
  onCore : Bool
  core : Nat
  tids : List Nat
  order : Nat
  runSince : DWord
  billed : DWord
  used : Nat
  issue : Nat
  stop : Stop
  stopAt : DWord
  endCode : Nat
  nfault : Nat
  fault1 : Option Nat
  losses : List (Nat × Nat)
  phase : Option PhaseRec
  scratch : Memory
  regions : List Region
  rings : List Ring
  tcfg : Map 32
  tband : Map 32
  tiles : Map 8
  accs : Map 32
  savedCells : Map 32
  savedOwner : Option Nat
  query : Map 8
  barriers : List Nat
  sched : List SchedEntry
  schedCtr : Nat
  divert : Option (List (Nat × Divert))
  deferred : List (Nat × Pending)
  clk : Clock
  did : Clock
  quiesced : Bool
  freed : List Nat
  retire : Nat
  decremented : Bool
  deriving DecidableEq, Repr

/-! ## Cores (R272 to R278, R347, R82) -/

/-- A control-word snapshot of a tile (R278). -/
structure TileCfg where
  tile : Nat
  word0 : Word
  word1 : Word
  deriving DecidableEq, Repr

/-- Narrow formats of a drain (R293). -/
inductive DrainFmt where
  | bf16 | e4m3 | e5m2 | e2m1
  deriving DecidableEq, Repr

/-- Matrix commands with what their issue read (R278). `landing` is an MST or a DRAINQ whose member was saved
before its writes landed: they go on under diversion, and the tile or the cells are done with (R283). -/
inductive MKind where
  | mld (t : TileCfg) (off pitch : Nat) (bar : Word)
  | mst (t : TileCfg) (off pitch : Nat) (bar : Word)
  | mma (a b pa pb : TileCfg) (rows : BitVec 64)
  | mzero
  | shiftout (slot : Nat)
  | shiftin (slot : Nat)
  | accclr (slot : Nat)
  | drainq (fmt : DrainFmt) (dest scale : DWord) (mult config bar : Word)
  | landing (drain : Bool) (writes : List (DWord × List Byte)) (bar : Word)
  deriving DecidableEq, Repr

/-- A queued matrix command. -/
structure MCmd where
  id : Nat
  uids : List Nat
  crew : Nat
  member : Nat
  pc : Word
  kind : MKind
  after : List Nat
  clk : Clock
  deriving DecidableEq, Repr

/-- Sieve commands (R349, R350). -/
inductive SKind where
  | skset (slot off : Nat)
  | sieve (slot list n : Nat) (threshold : Word) (bitmap sink loc len : Nat) (bar : Word)
  deriving DecidableEq, Repr

/-- A queued sieve command. -/
structure SCmd where
  id : Nat
  uids : List Nat
  crew : Nat
  member : Nat
  pc : Word
  kind : SKind
  after : List Nat
  clk : Clock
  deriving DecidableEq, Repr

/-- A core: array cells and owner, engine queues with the clocks of their
completed commands (R278, R347), the MMA that streams behind the last one (R291), crew entry generations, clock
gate. -/
structure Core where
  id : Nat
  cells : Map 32
  owner : Option Nat
  mq : List MCmd
  sq : List SCmd
  mclk : Clock
  sclk : Clock
  stream : Option Nat
  gens : List (Nat × Nat)
  gated : Bool
  wakeAt : Option DWord
  woken : List DWord
  lastActive : DWord
  deriving DecidableEq, Repr

/-! ## Engines and requests in flight -/

/-- A KV or dry-fit request (R342, R401). -/
inductive KvReq where
  | look (key : KvKey)
  | alloc (key : KvKey) (n : Nat) (fp8 : Bool) (window : Nat)
  | free (key : KvKey)
  | freeAll (seq : Nat)
  | share (child parent blocks : Nat)
  | dfopen (seq w nd : Nat)
  | dfmark (seq w : Nat) (c : DWord) (off z : Nat)
  | dfkeep (seq w k : Nat)
  | dfdrop (seq w : Nat)
  | dfq (seq : Nat)
  deriving DecidableEq, Repr

/-- What a thread has under way. -/
inductive FlightOp where
  | load (loc : Loc) (size : Nat) (signed : Bool)
  | store (loc : Loc) (data : List Byte)
  | atomic (loc : Loc) (kind : AtomKind) (operand compare : DWord) (m : AtomMod)
  | kv (req : KvReq)
  | jdec (handle : Word) (n : Nat)
  | yput (template : Nat) (gate done : Word) (args : Option (List Word)) (count : Nat)
  | ycancel (job : DWord)
  deriving DecidableEq, Repr

/-- A path T access or request in flight (R354, R380, R436). `uids` are the threads that receive the
reply, `agent` the one that makes the access; `applied` marks a step already taken at the home or unit;
`time` is when its instruction issued (R126) and `learnt` what its step acquired (R346, R360). -/
structure Flight where
  id : Nat
  agent : Nat
  uids : List Nat
  member : Nat
  core : Nat
  pc : Word
  op : FlightOp
  dst : List Slot
  applied : Bool
  reply : List Word
  trap : Option (Nat × DWord)
  clk : Clock
  time : DWord
  learnt : Clock
  deriving DecidableEq, Repr

/-- Copy commands (R317), those of CPYN with the peer list's entry (R322), and schedule entries. -/
inductive CopyKind where
  | cpy
  | cpym (mask : Nat)
  | acc (slot : Nat) (out : Bool)
  | put (peer : Peer)
  | get (peer : Peer)
  | sched (entry : Nat)
  deriving DecidableEq, Repr

/-- A copy command in its queue entry (R297 to R302); `arrived` says that its arrivals have set out, after
which its entry waits for them (R300). -/
structure Copy where
  id : Nat
  uid : Nat
  member : Nat
  crew : Nat
  core : Nat
  pc : Word
  kind : CopyKind
  dst : DWord
  src : DWord
  rowbytes : Nat
  rows : Nat
  dpitch : Nat
  spitch : Nat
  arrive : Bool
  done : Bool
  joint : Option Word
  ring : Option Nat
  offset : Nat
  shape : Word
  after : List Nat
  clk : Clock
  started : Bool
  slot : Option Nat
  moved : List (Nat × Nat)
  rowsDone : Nat
  fail : Option (Nat × Nat × DWord)
  discard : Option (Nat × DWord × Nat × Nat)
  arrived : Bool
  deriving DecidableEq, Repr

/-- An arrival on its way to a barrier (R300, R304): the command and its crew, the bytes it counts and
those it moved. -/
structure Arrival where
  id : Nat
  cmd : Nat
  crew : Nat
  loc : Loc
  bytes : Nat
  moved : Nat
  error : Option Nat
  clk : Clock
  deriving DecidableEq, Repr

/-- A decrement of a member's copy on its way to its owning section (R60). -/
structure Decrement where
  id : Nat
  cmd : Nat
  member : Nat
  part : Nat
  handle : Word
  job : DWord
  clk : Clock
  deriving DecidableEq, Repr

/-- An infeed or outfeed subscription (R313, R314); `clk` is what happens before its next tile, its own
earlier tiles among it. -/
structure Sub where
  id : Nat
  member : Nat
  uid : Nat
  crew : Nat
  ring : Nat
  infeed : Bool
  stack : Nat
  base : DWord
  rowBytes : Nat
  rows : Nat
  pitch : Nat
  step : Nat
  count : Nat
  next : Nat
  after : List Nat
  clk : Clock
  deriving DecidableEq, Repr

/-- The clock of an arrival barrier: the arrivals that no flip has counted yet, oldest first, with their
bytes and what they carry, and what the last flip published (R305, R364). -/
structure BarClock where
  loc : Loc
  acc : List (Nat × Clock)
  flipped : Clock
  deriving DecidableEq, Repr

/-- A release of an atomic location (R360): its size, clock, issuing core and scope. -/
structure Release where
  loc : Loc
  size : Nat
  clk : Clock
  core : Nat
  scope : Nat
  deriving DecidableEq, Repr

/-- What the happens-before order needs of a location (R372): the last write and the writes that it does
not follow, the reads that no write follows, whether a race has left its contents unbounded, and the agents whose
reads race with a write that is to come (DESIGN CHOICE 11). An access is an agent, its epoch, and the size when it is an
atomic (0 otherwise). -/
structure Shadow where
  loc : Loc
  writes : List (Nat × Nat × Nat)
  reads : List (Nat × Nat × Nat)
  raced : Bool
  foretold : List Nat
  deriving DecidableEq, Repr

/-! ## The yard (R57 to R81, R382) -/

/-- A joint counter (R58, R59). -/
structure Counter where
  part : Nat
  sect : Nat
  index : Nat
  gen : Nat
  value : Nat
  gated : List Nat
  job : Option DWord
  clk : Clock
  deriving DecidableEq, Repr

/-- An entry of a section's underflow log (R61): handle, source kind (2 copy, 3 member), job, cycle
stamp. -/
structure Underflow where
  sect : Nat
  handle : Word
  source : Nat
  job : DWord
  time : DWord
  deriving DecidableEq, Repr

/-- A tag barrier of a job (R383): the open generation's number and, once it has an arrival, its
count, arrivals, dies and last arrival; the last released generation, and by generation what its arrivals published. -/
structure TagBarrier where
  part : Nat
  job : DWord
  tag : Nat
  num : Nat
  count : Option Nat
  arrived : Nat
  dies : List Nat
  lastAt : DWord
  released : Option Nat
  clk : Clock
  outs : List (Nat × Clock)
  deriving DecidableEq, Repr

/-- The physical route tags a job holds on a die, in job-tag order (R382). -/
structure TagHold where
  part : Nat
  die : Nat
  job : DWord
  tags : List Nat
  deriving DecidableEq, Repr

/-- A tag-barrier arrival on its way to the barrier tree (R383). -/
structure TagArrival where
  id : Nat
  part : Nat
  job : DWord
  tag : Nat
  count : Nat
  crew : Nat
  core : Nat
  uids : List Nat
  dst : Option (List Slot)
  waits : Bool
  view : Bool
  clk : Clock
  deriving DecidableEq, Repr

/-- A section's advertisement of its largest free core (R77). -/
structure Advert where
  sect : Nat
  part : Nat
  cls : CoreClass
  slots : Nat
  units : Nat
  deriving DecidableEq, Repr

/-- A migration message (R78): entries sent, and once received which were accepted. -/
structure Move where
  id : Nat
  src : Nat
  dst : Nat
  members : List Nat
  accepted : Option (List Nat)
  deriving DecidableEq, Repr

/-- A cancel mark a section has applied (R79). -/
structure CancelMark where
  part : Nat
  job : DWord
  sect : Nat
  deriving DecidableEq, Repr

/-- A cancel on its way to the four sections: where the answer goes (a request, or a YCANCEL), the members
cancelled so far, and the sections still to apply it (R79). -/
structure CancelReq where
  part : Nat
  job : DWord
  request : Option ReqHdr
  flight : Option Nat
  count : Nat
  left : List Nat
  deriving DecidableEq, Repr

/-! ## The KV unit (R330 to R346, R397) -/

/-- A sequence descriptor (R333); `shared` names the parent's pages on which KVSHARE raised a reference
for it (R338, R344). -/
structure Seq where
  num : Nat
  tenant : Nat
  live : Bool
  poisoned : Bool
  fp8 : Bool
  length : Nat
  window : Nat
  parent : Option Nat
  pfx : Nat
  pages : Nat
  dfwin : Nat
  far : Nat
  shared : List KvKey
  deriving DecidableEq, Repr

/-- An inverted table entry (R334), listed with its page number; `held` says that its sequence has not
released it (R338). -/
structure KvEntry where
  page : Nat
  key : KvKey
  tenant : Nat
  valid : Bool
  resident : Bool
  transit : Bool
  poisoned : Bool
  fp8 : Bool
  provisional : Bool
  count : Nat
  refs : Nat
  window : Nat
  next : Option Nat
  wcount : Nat
  held : Bool
  deriving DecidableEq, Repr

/-- A dry-fit window record (R397). -/
structure Window where
  seq : Nat
  w : Nat
  member : Nat
  base : Nat
  nd : Nat
  marks : List (DWord × Nat × Nat)
  touched : List (KvKey × Nat)
  deriving DecidableEq, Repr

/-- A sealed page in the far memory pool (R339): the entry it had, the sealed image and its tag, and the
bytes that the image opens to while its tag matches (R340). -/
structure FarPage where
  entry : KvEntry
  image : List Byte
  tag : List Byte
  plain : List Byte
  deriving DecidableEq, Repr

/-- A partition's KV unit. `heads` are the overflow heads, `clks` what the KVALLOCs of each sequence have
published (R346), `keeps` what the DFKEEP steps have (R367). -/
structure KvUnit where
  seqs : List Seq
  entries : List KvEntry
  heads : List (Nat × Nat)
  windows : List Window
  far : List FarPage
  clks : List (Nat × Clock)
  keeps : Clock
  deriving DecidableEq, Repr

/-! ## Nymesque and the sill complex -/

/-- A function of a code version (R10). -/
structure Func where
  id : Word
  entry : Word
  handler : Word
  deriving DecidableEq, Repr

/-- A code version (R19): words, functions, member templates, scratch images per function, and the
shared image with its address. -/
structure Version where
  num : Nat
  words : List Word
  funcs : List Func
  templates : List LaunchRec
  scratch : List (Word × Nat × List Byte)
  shared : List (DWord × List Byte)
  deriving DecidableEq, Repr

/-- A loaded container (R15, R19). -/
structure Container where
  handle : Word
  part : Nat
  cls : Nat
  current : Nat
  versions : List Version
  deriving DecidableEq, Repr

/-- A launch waiting in a fair-share queue (R49); `clk` is what its requester knew when it was sent (R366). -/
structure Queued where
  order : Nat
  h : ReqHdr
  part : Nat
  desc : LaunchRec
  version : Nat
  clk : Clock
  deriving DecidableEq, Repr

/-- The header of a snapshot record (R440). -/
structure Snap where
  time : DWord
  job : DWord
  tag : Word
  core : Nat
  tid : Nat
  kind : Nat
  part : Nat
  blocks : Nat
  deriving DecidableEq, Repr

/-- A partition (R43): its configuration, page-table root, cancel marks of jobs (R42), KV unit,
report sequence (R479), sampler counts per die (R215), snapshots (R439), next sweep (R211). -/
structure Partition where
  id : Nat
  cfg : PartCfg
  root : Nat
  jobs : List DWord
  kv : KvUnit
  seq : Nat
  samples : List (Nat × Nat)
  latched : Option Snap
  snaps : List Snap
  sweepAt : DWord
  deriving DecidableEq, Repr

/-- The seven usage counters (R476). -/
structure Usage where
  cells : Nat
  issue : Nat
  mem : Nat
  copy : Nat
  net : Nat
  sieve : Nat
  resident : Nat
  deriving DecidableEq, Repr

/-- An account (R47, R72, R476): configuration, usage figure and the charge of the running interval in
units of 1/2048, the deficit last computed as a fraction, and counters. -/
structure Account where
  id : Nat
  cfg : AcctCfg
  figure : Nat
  charge : Nat
  deficit : Int
  deficitDen : Nat
  usage : Usage
  deriving DecidableEq, Repr

/-- A journal record (R29), less its check. -/
structure Journal where
  start : Nat
  step : Nat
  event : Nat
  detail : BitVec 16
  time : Nat
  deriving DecidableEq, Repr

/-- A firmware slot (R33). -/
structure FwSlot where
  image : FwImage
  writeSeq : Word
  deriving DecidableEq, Repr

/-- The two slots of a firmware image, and whether the last start booted slot B (R33). -/
structure FwPair where
  id : Nat
  a : FwSlot
  b : FwSlot
  bootedB : Bool
  deriving DecidableEq, Repr

/-- Where the sill complex stands: before boot, recovery, or running Nymesque (R28, R32). -/
inductive Sill where
  | off | recovery | running
  deriving DecidableEq, Repr

/-- Lifetime counters (R480), each a list of index and count. -/
structure Lifetime where
  errors : List (Nat × Nat)
  traps : List (Nat × Nat)
  retrains : List (Nat × Nat)
  preempt : List (Nat × Nat)
  wake : List (Nat × Nat)
  deriving DecidableEq, Repr

/-- The fields of a completion message (R475). -/
structure Completion where
  endCode : Nat
  byYput : Bool
  decremented : Bool
  member : Nat
  job : DWord
  replytag : DWord
  index : Nat
  acct : Nat
  nfault : Nat
  fault : Nat
  version : Nat
  issue : Nat
  deriving DecidableEq, Repr

/-- A signed usage report (R478). -/
structure Report where
  part : Nat
  seq : Nat
  time : DWord
  boot : Nat
  entries : List (Nat × Usage)
  devid : List Byte
  signature : List Byte
  deriving DecidableEq, Repr

/-- A signed attestation (R34). -/
structure Attest where
  nonce : List Byte
  firmware : List (List Byte)
  journal : List Byte
  lowered : List Nat
  cores : List Nat
  config : List Byte
  seq : Nat
  certificate : List Byte
  signature : List Byte
  deriving DecidableEq, Repr

/-- Kind-specific reply payloads (R37); those of a job carry the headers of its snapshot records (R440). -/
inductive ReplyBody where
  | empty
  | loaded (handle : Word) (version : Nat)
  | number (n : Nat)
  | launched (first count : Nat)
  | report (r : Report)
  | attest (a : Attest)
  | job (states : List (Nat × MState)) (log : List Underflow) (snaps : List (List Byte))
  | device (lowered outOfService : List Nat) (life : Option Lifetime)
  | data (bytes : List Byte)
  deriving DecidableEq, Repr

/-- What leaves the device: replies to requesters, completion messages, RMA completions, the puts and gets
that CPYN sends, by the port, to the address, endpoint and job that its entry names (R44, R322), and I3C
answers. -/
inductive Msg where
  | reply (dst : Nat) (reqid : DWord) (status : Nat) (body : ReplyBody)
  | done (dst : Nat) (payload : List Byte)
  | rma (dst : Nat) (ok : Bool) (data : List Byte)
  | put (part : Nat) (peer : Peer) (addr : DWord) (data : List Byte)
  | get (part : Nat) (peer : Peer) (addr : DWord) (len : Nat)
  | journal (records : List Journal)
  | ready
  deriving DecidableEq, Repr

/-- A request identifier of an endpoint's window (R39), with its reply once that was made. -/
structure Seen where
  ep : Nat
  reqid : DWord
  reply : Option Msg
  deriving DecidableEq, Repr

/-- The sill complex and Nymesque (R28 to R49, R476 to R480). `out` is what has left the device, in order;
`epClks` is what the endpoints outside know of the accesses made (R366, R369), `doneClk` what the members did
whose completion message has left (R366); `onFor` is how many cycles before this start the power came on, none
while the power is off (R29). -/
structure Nym where
  sill : Sill
  boots : Nat
  journal : List Journal
  lowered : List Nat
  fw : List FwPair
  floor : Nat
  flashParts : List (Nat × PartCfg)
  flashAccts : List (Nat × AcctCfg)
  flashSeqs : List (Nat × Nat)
  flashUsage : List (Nat × Usage)
  halfLife : Nat
  seen : List Seen
  portErrors : List (Nat × Nat)
  out : List Msg
  life : Lifetime
  flashLife : Lifetime
  epClks : List (Nat × Clock)
  doneClk : Clock
  onFor : Option Nat
  deriving DecidableEq, Repr

/-! ## The device -/

/-- What happens next: a thread issues its word, an event happens with its input, a byte of memory comes to hold an
uncorrectable error (R214), or a race that is to come at a byte makes what it holds unbounded (R372) (DESIGN
CHOICE 11). -/
inductive Action where
  | issue (thread : Nat)
  | event (e : Instr) (input : Input)
  | error (l : Loc)
  | race (l : Loc) (agent : Nat)
  deriving DecidableEq, Repr

/-- The state of the device. `poison` lists poisoned lines of device memory by their number, `broken` the
bytes that hold an uncorrectable error (R214). `agenda`, `cur`, `input`, `fresh` and `nextId` are the model's own: what
happens next, the issuing thread, the input of the running event, the counters of free values and of
identifiers. -/
structure State where
  clock : DWord
  fresh : Nat
  nextId : Nat
  agenda : List Action
  cur : Option Nat
  input : Input
  mem : Memory
  poison : List Nat
  broken : List Loc
  nextFrame : Nat
  faults : List (Nat × Nat)
  nym : Nym
  parts : List Partition
  accts : List Account
  containers : List Container
  queue : List Queued
  members : List Member
  crews : List Crew
  threads : List Thread
  frames : List Frame
  cores : List Core
  flights : List Flight
  copies : List Copy
  arrivals : List Arrival
  decs : List Decrement
  subs : List Sub
  counters : List Counter
  counterGens : List (Nat × Nat)
  underflows : List Underflow
  tags : List TagBarrier
  tagHolds : List TagHold
  tagArrivals : List TagArrival
  adverts : List Advert
  moves : List Move
  marks : List CancelMark
  cancels : List CancelReq
  advertAt : DWord
  usageAt : DWord
  barClks : List BarClock
  releases : List Release
  shadow : List Shadow
  deriving DecidableEq, Repr

/-- Why a step can stop. -/
inductive Fault where
  /-- Raised by the meaning of an instruction word when no thread issues it (`cur` names no thread of
  the device). No step does this; it is safe, since the hardware has no such case (DESIGN CHOICE 29). -/
  | noThread
  deriving DecidableEq, Repr

/-- Why an instruction can have no meaning. -/
inductive Refusal where
  /-- Raised by an arm of the dispatch table for an instruction the model does not hold yet; safe. -/
  | notModelled (mnemonic : String)
  deriving DecidableEq, Repr

/-- The slots of a firmware image as the module leaves the factory (DESIGN CHOICE 5). -/
def FwPair.factory (id : Nat) : FwPair := ⟨id, ⟨⟨id, [], [], 0⟩, 0⟩, ⟨⟨id, [], [], 0⟩, 0⟩, false⟩
/-- Lifetime counters at zero. -/
def Lifetime.zero : Lifetime := ⟨[], [], [], [], []⟩
/-- Usage counters at zero. -/
def Usage.zero : Usage := ⟨0, 0, 0, 0, 0, 0, 0⟩

/-- The sill complex as the module leaves the factory: no start made yet (DESIGN CHOICE 5). -/
def Nym.reset : Nym where
  sill := .off
  boots := 0
  journal := []
  lowered := []
  fw := Config.firmwareImages.map FwPair.factory
  floor := 0
  flashParts := []
  flashAccts := []
  flashSeqs := []
  flashUsage := []
  halfLife := 60
  seen := []
  portErrors := []
  out := []
  life := Lifetime.zero
  flashLife := Lifetime.zero
  epClks := []
  doneClk := []
  onFor := none

/-- The device right after reset: nothing loaded, no member, no thread, memory with nothing listed;
the boot steps of R28 are what happens first (DESIGN CHOICE 5). -/
def State.reset : State where
  clock := 0
  fresh := 0
  nextId := 1
  agenda := []
  cur := none
  input := .none
  mem := []
  poison := []
  broken := []
  nextFrame := 1
  faults := []
  nym := Nym.reset
  parts := []
  accts := []
  containers := []
  queue := []
  members := []
  crews := []
  threads := []
  frames := []
  cores := []
  flights := []
  copies := []
  arrivals := []
  decs := []
  subs := []
  counters := []
  counterGens := []
  underflows := []
  tags := []
  tagHolds := []
  tagArrivals := []
  adverts := []
  moves := []
  marks := []
  cancels := []
  advertAt := 0
  usageAt := 0
  barClks := []
  releases := []
  shadow := []

end Sys2Proof.Machine
end

