-- ==== Sys2Proof/Machine/Maps.lean ====
section
/-! DEFINITION. Maps from numbers to bits in canonical form (rising keys, no value zero), memories as
little-endian bytes, keyed lists, and vector clocks. -/
namespace Sys2Proof.Machine

open Sys2Proof

/-! ## Maps -/

/-- The value at a key, zero when nothing is listed (DESIGN CHOICE 2). -/
def Map.get {w : Nat} (m : Map w) (k : Nat) : BitVec w :=
  match m with
  | [] => 0
  | (a, v) :: rest => if a = k then v else Map.get rest k

/-- Sets the value at a key and keeps the canonical form: the value zero removes the entry. -/
def Map.set {w : Nat} (m : Map w) (k : Nat) (v : BitVec w) : Map w :=
  match m with
  | [] => if v = 0 then [] else [(k, v)]
  | (a, x) :: rest =>
    if a = k then (if v = 0 then rest else (k, v) :: rest)
    else if a < k then (a, x) :: Map.set rest k v
    else if v = 0 then (a, x) :: rest
    else (k, v) :: (a, x) :: rest

/-- Every key listed is at or above the bound, keys rise, and no listed value is zero. -/
def Map.wfFrom {w : Nat} (m : Map w) (bound : Nat) : Bool :=
  match m with
  | [] => true
  | (a, v) :: rest => decide (bound ≤ a) && (v != 0) && Map.wfFrom rest (a + 1)

/-- The canonical form: rising keys, no value zero. -/
def Map.wf {w : Nat} (m : Map w) : Bool := m.wfFrom 0

/-- The canonical form of a memory. -/
def Memory.wf (m : Memory) : Bool := Map.wf (w := 8) m

/-- The byte at an address; an unlisted byte is zero. -/
def Memory.byte (m : Memory) (a : Nat) : Byte := Map.get (w := 8) m a

/-- `n` bytes from an address upwards. -/
def Memory.bytes (m : Memory) (a n : Nat) : List Byte := (List.range n).map fun i => m.byte (a + i)

/-- Writes bytes from an address upwards. -/
def Memory.put (m : Memory) (a : Nat) (bs : List Byte) : Memory :=
  match bs with
  | [] => m
  | b :: rest => Memory.put (Map.set (w := 8) m a b) (a + 1) rest

/-- The little-endian number of some bytes (R5). -/
def leNat (bs : List Byte) : Nat :=
  match bs with
  | [] => 0
  | b :: rest => b.toNat + 256 * leNat rest

/-- `n` little-endian bytes of a number (R5). -/
def leBytes (n x : Nat) : List Byte :=
  match n with
  | 0 => []
  | n + 1 => BitVec.ofNat 8 x :: leBytes n (x / 256)

/-- A little-endian word. -/
def leWord (bs : List Byte) : Word := BitVec.ofNat 32 (leNat bs)
/-- A little-endian 64-bit value. -/
def leDWord (bs : List Byte) : DWord := BitVec.ofNat 64 (leNat bs)
/-- `n` bytes of a list from a position, zeros past its end. -/
def slice (bs : List Byte) (i n : Nat) : List Byte := (List.range n).map fun k => bs.getD (i + k) 0
/-- The little-endian number in `n` bytes of a list. -/
def sliceNat (bs : List Byte) (i n : Nat) : Nat := leNat (slice bs i n)

/-! ## Keyed lists -/

/-- Changes the elements that meet a condition. -/
def updateIf {α : Type} (l : List α) (p : α → Bool) (f : α → α) : List α :=
  l.map fun x => if p x then f x else x

/-- Replaces the elements that meet a condition, or adds the value at the end when there is none. -/
def upsert {α : Type} (l : List α) (p : α → Bool) (x : α) : List α :=
  if l.any p then updateIf l p (fun _ => x) else l ++ [x]

/-- The value of a key in a list of pairs. -/
def assoc {α : Type} (l : List (Nat × α)) (k : Nat) : Option α := (l.find? fun x => x.1 == k).map (·.2)

/-- Sets the value of a key in a list of pairs. -/
def assocSet {α : Type} (l : List (Nat × α)) (k : Nat) (v : α) : List (Nat × α) :=
  upsert l (fun x => x.1 == k) (k, v)

/-- Adds to a counter in a list of pairs, saturating at 2^64 - 1 (R480). -/
def countUp (l : List (Nat × Nat)) (k n : Nat) : List (Nat × Nat) :=
  assocSet l k (Nat.min ((assoc l k).getD 0 + n) (2 ^ 64 - 1))

/-- The lowest number below `bound` that a list does not hold. -/
def lowestFree (used : List Nat) (bound : Nat) : Option Nat := go (used.length + 1) 0
where
  /-- The search from a number upwards. -/
  go (fuel i : Nat) : Option Nat :=
    match fuel with
    | 0 => none
    | fuel + 1 => if bound ≤ i then none else if used.contains i then go fuel (i + 1) else some i

/-- The least element under a key, the first among equals. -/
def minBy {α : Type} (l : List α) (key : α → Nat) : Option α :=
  match l with
  | [] => none
  | x :: rest =>
    match minBy rest key with
    | none => some x
    | some y => if key x ≤ key y then some x else some y

/-- Inserts into a list sorted by a key, after the elements with an equal key. -/
def insertBy {α : Type} (key : α → Nat) (x : α) (l : List α) : List α :=
  match l with
  | [] => [x]
  | y :: rest => if key x < key y then x :: y :: rest else y :: insertBy key x rest

/-- A stable sort by a key. -/
def sortBy {α : Type} (key : α → Nat) (l : List α) : List α :=
  match l with
  | [] => []
  | x :: rest => insertFront x (sortBy key rest)
where
  insertFront (x : α) (l : List α) : List α :=
    match l with
    | [] => [x]
    | y :: rest => if key x ≤ key y then x :: y :: rest else y :: insertFront x rest

/-! ## Vector clocks (R355) -/

/-- The epoch a clock knows of an agent. -/
def Clock.get (c : Clock) (a : Nat) : Nat := (assoc c a).getD 0

/-- Raises what a clock knows of an agent. -/
def Clock.raise (c : Clock) (a e : Nat) : Clock :=
  if Clock.get c a < e then assocSet c a e else c

/-- Everything either clock knows. -/
def Clock.join (c d : Clock) : Clock := d.foldl (fun acc x => Clock.raise acc x.1 x.2) c

/-- The clock of a path in a list by paths. -/
def pathClock (l : List (Path × Clock)) (p : Path) : Clock :=
  ((l.find? fun x => x.1 == p).map (·.2)).getD []

/-- Joins into the clock of a path. -/
def joinPath (l : List (Path × Clock)) (p : Path) (c : Clock) : List (Path × Clock) :=
  upsert l (fun x => x.1 == p) (p, Clock.join (pathClock l p) c)

/-- Agents: a thread's plain accesses, its atomics, an engine command, a peer endpoint. -/
def agentT (uid : Nat) : Nat := 4 * uid
/-- A thread's atomics. -/
def agentA (uid : Nat) : Nat := 4 * uid + 1
/-- An engine command or subscription. -/
def agentC (id : Nat) : Nat := 4 * id + 2
/-- A peer endpoint, or Nymesque. -/
def agentP (peer : Nat) : Nat := 4 * peer + 3

end Sys2Proof.Machine
end

