-- ==== Sys2Proof/Machine/Ops.lean ====
section
/-! DEFINITION. The named operations over the state: units by their numbers, registers and girt slots,
guard runs and the PC, crews, snapshots, taking a trap and returning from one, and the end of a thread. -/
namespace Sys2Proof.Machine

open Sys2Proof

/-! ## Cores (00_scope.md, R173) -/

/-- M-cores are numbered 0 to 191. -/
def isM (core : Nat) : Bool := core < Config.mCores
/-- The compute die of a core. -/
def dieOf (core : Nat) : Nat := if isM core then core / 48 else (core - Config.mCores) / 8
/-- The class of a core. -/
def classOf (core : Nat) : CoreClass := if isM core then .mcore else .score

/-- Thread slots, registers, scratchpad units, accumulator slots, tile registers, rings and copy queue
entries of a core (R66). -/
structure Totals where
  slots : Nat
  regs : Nat
  units : Nat
  accs : Nat
  tiles : Nat
  rings : Nat
  copies : Nat
  deriving DecidableEq, Repr

/-- The core totals of R66. -/
def totals : CoreClass → Totals
  | .mcore => ⟨2048, 131072, 96, 64, 32, 16, 256⟩
  | .score => ⟨512, 32768, 64, 0, 0, 8, 128⟩

/-! ## Units by their numbers -/

/-- The thread of a `uid`. -/
def State.thread? (s : State) (u : Nat) : Option Thread := s.threads.find? fun t => t.uid == u
/-- The thread that issues. -/
def State.curThread? (s : State) : Option Thread := s.cur.bind s.thread?
/-- A thread that has not ended in its bent (R187). -/
def Thread.lives (t : Thread) : Bool :=
  match t.wait with
  | .ended => false
  | _ => true
/-- Changes one thread. -/
def State.modThread (s : State) (u : Nat) (f : Thread → Thread) : State :=
  { s with threads := updateIf s.threads (fun t => t.uid == u) f }
/-- The member of a number. -/
def State.member? (s : State) (m : Nat) : Option Member := s.members.find? fun x => x.id == m
/-- Changes one member. -/
def State.modMember (s : State) (m : Nat) (f : Member → Member) : State :=
  { s with members := updateIf s.members (fun x => x.id == m) f }
/-- The crew of a number. -/
def State.crew? (s : State) (c : Nat) : Option Crew := s.crews.find? fun x => x.cid == c
/-- Changes one crew. -/
def State.modCrew (s : State) (c : Nat) (f : Crew → Crew) : State :=
  { s with crews := updateIf s.crews (fun x => x.cid == c) f }
/-- The frame of a number. -/
def State.frame? (s : State) (f : Nat) : Option Frame := s.frames.find? fun x => x.fid == f
/-- Changes one frame. -/
def State.modFrame (s : State) (f : Nat) (g : Frame → Frame) : State :=
  { s with frames := updateIf s.frames (fun x => x.fid == f) g }
/-- The partition of a number. -/
def State.part? (s : State) (p : Nat) : Option Partition := s.parts.find? fun x => x.id == p
/-- Changes one partition. -/
def State.modPart (s : State) (p : Nat) (f : Partition → Partition) : State :=
  { s with parts := updateIf s.parts (fun x => x.id == p) f }
/-- The account of a number. -/
def State.acct? (s : State) (a : Nat) : Option Account := s.accts.find? fun x => x.id == a
/-- Changes one account. -/
def State.modAcct (s : State) (a : Nat) (f : Account → Account) : State :=
  { s with accts := updateIf s.accts (fun x => x.id == a) f }
/-- A core that nothing has used yet. -/
def Core.fresh (c : Nat) : Core := ⟨c, [], none, [], [], [], [], none, [], false, none, [], 0⟩
/-- A core. -/
def State.core (s : State) (c : Nat) : Core := (s.cores.find? fun x => x.id == c).getD (Core.fresh c)
/-- Changes one core. -/
def State.modCore (s : State) (c : Nat) (f : Core → Core) : State :=
  { s with cores := upsert s.cores (fun x => x.id == c) (f (s.core c)) }
/-- A waking event: a gated core's first issue follows 144 cycles later, and the event is held until then, to be
recorded (R83). -/
def State.wakeCore (s : State) (core : Nat) : State :=
  if (s.core core).gated && (s.core core).wakeAt.isNone then
    s.modCore core fun c => { c with wakeAt := some (s.clock + 144), woken := c.woken ++ [s.clock] }
  else s
/-- A waking event on a member's core (R83). -/
def State.wakeMember (s : State) (m : Nat) : State :=
  match (s.member? m).bind fun x => if x.onCore then some x.core else none with
  | none => s
  | some c => s.wakeCore c
/-- Changes what a flight carries. -/
def State.modFlight (s : State) (i : Nat) (f : Flight → Flight) : State :=
  { s with flights := updateIf s.flights (fun x => x.id == i) f }
/-- The threads of a crew, in lane order of the list. -/
def State.crewThreads (s : State) (c : Nat) : List Thread := s.threads.filter fun t => t.crew == c
/-- The threads of a member, bent lanes among them. -/
def State.memberThreads (s : State) (m : Nat) : List Thread := s.threads.filter fun t => t.member == m
/-- A fresh identifier, and the state that has used it. -/
def State.freshId (s : State) : Nat × State := (s.nextId, { s with nextId := s.nextId + 1 })

/-- The container of a handle. -/
def State.container? (s : State) (h : Word) : Option Container :=
  s.containers.find? fun c => c.handle == h
/-- The code version of a container. -/
def Container.version? (c : Container) (v : Nat) : Option Version := c.versions.find? fun x => x.num == v
/-- The version a member is bound to (R22). -/
def State.versionOf (s : State) (m : Member) : Option Version :=
  (s.container? m.container).bind fun c => c.version? m.version
/-- The handler entry of a member's function in its bound version (R10, R22). -/
def State.handlerOf (s : State) (m : Member) : Word :=
  (((s.versionOf m).bind fun v => v.funcs.find? fun f => f.id == m.desc.function).map (·.handler)).getD 0

/-! ## Accounts, end status and snapshots -/

/-- The largest value of a usage counter (R476). -/
def usageMax : Nat := 2 ^ 64 - 1
/-- A saturating sum of usage counters (R476). -/
def Usage.add (u v : Usage) : Usage where
  cells := Nat.min (u.cells + v.cells) usageMax
  issue := Nat.min (u.issue + v.issue) usageMax
  mem := Nat.min (u.mem + v.mem) usageMax
  copy := Nat.min (u.copy + v.copy) usageMax
  net := Nat.min (u.net + v.net) usageMax
  sieve := Nat.min (u.sieve + v.sieve) usageMax
  resident := Nat.min (u.resident + v.resident) usageMax

/-- An account that no ACCTCFG has set since the start: it belongs to no partition (32), and its counters go on
where flash holds them (R476, R477). -/
def State.unsetAcct (s : State) (acct : Nat) : Account :=
  ⟨acct, ⟨32, 0, 0, 0, 0⟩, 0, 0, 0, 1, (assoc s.nym.flashUsage acct).getD Usage.zero⟩
/-- Charges an account, one of the 1,024 that the device holds (R47, R476). -/
def State.charge (s : State) (acct : Nat) (u : Usage) : State :=
  let a := (s.acct? acct).getD (s.unsetAcct acct)
  { s with accts := upsert s.accts (fun x => x.id == acct) { a with usage := a.usage.add u } }
/-- Charges a member's account. -/
def State.chargeMember (s : State) (m : Nat) (u : Usage) : State :=
  match s.member? m with
  | none => s
  | some x => s.charge x.acct u
/-- Charges thread issue slots to a member and its account (R475, R476). -/
def State.chargeIssue (s : State) (m n : Nat) : State :=
  (s.modMember m fun x => { x with issue := x.issue + n }).chargeMember m { Usage.zero with issue := n }

/-- The header of a snapshot triggered now (R440). -/
def State.snapHeader (s : State) (part : Nat) (job : DWord) (tag : Word) (core tid kind : Nat) : Snap :=
  ⟨s.clock, job, tag, core, tid, kind, part, (Config.snapBlocks part s.fresh).toNat⟩

/-- The 32 bytes of a snapshot record's header (R440). -/
def Snap.bytes (x : Snap) : List Byte :=
  leBytes 8 x.time.toNat ++ leBytes 8 x.job.toNat ++ leBytes 4 x.tag.toNat ++ leBytes 2 x.core ++ leBytes 2 x.tid ++
    leBytes 1 x.kind ++ leBytes 1 x.part ++ leBytes 2 x.blocks ++ leBytes 4 0

/-- Triggers a snapshot of a partition; dropped while the last one is not collected (R439). -/
def State.snapshot (s : State) (part : Nat) (snap : Snap) : State × Bool :=
  match s.part? part with
  | none => (s, false)
  | some p =>
    match p.latched with
    | some _ => (s, false)
    | none => (s.modPart part fun x => { x with latched := some snap }, true)

/-- The snapshot of a partition whose PARTCFG names a cause (R439). -/
def State.snapOnCause (s : State) (m : Member) (core tid cause : Nat) : State :=
  match s.part? m.part with
  | none => s
  | some p =>
    if p.cfg.snapCodes.contains cause then
      (s.snapshot m.part (s.snapHeader m.part m.job (BitVec.ofNat 32 cause) core tid 2)).1
    else s

/-- Counts a trap cause in the lifetime records (R480). -/
def State.countTrap (s : State) (cause : Nat) : State :=
  { s with nym := { s.nym with life := { s.nym.life with traps := countUp s.nym.life.traps cause 1 } } }

/-- Records a cause in a member's end status (R474, R480). -/
def State.recordFault (s : State) (m cause : Nat) : State :=
  match s.member? m with
  | none => s
  | some _ =>
    (s.modMember m fun x => { x with
        nfault := Nat.min (x.nfault + 1) 0xFFFF
        fault1 := some (x.fault1.getD cause) }).countTrap cause

/-- Records cause 0x182 or 0x183 of a thread in its member's end status, with the cause that was lost, and triggers its
snapshot (R423, R439, R474). -/
def State.recordLoss (s : State) (t : Thread) (m : Member) (cause lost : Nat) : State :=
  ((s.recordFault m.id cause).modMember m.id fun x => { x with losses := x.losses ++ [(cause, lost)] }).snapOnCause m
    t.core t.tid cause

/-! ## Guard runs and the PC (R84, R97 to R100) -/

/-- Lowers the remaining counts of the open runs by a number of words and closes those at zero. -/
def lowerRuns (rs : List Run) (n : Nat) : List Run :=
  (rs.map fun r => { r with left := r.left - n }).filter fun r => r.left != 0

/-- The word at the PC has completed: the PC advances and the runs that cover it shorten (R84, R98). -/
def Thread.advance (t : Thread) : Thread :=
  { t with pc := t.pc + 1, runs := lowerRuns t.runs 1, wait := .none }

/-- A taken control transfer closes every open run (R98). -/
def Thread.transfer (t : Thread) (target : Word) : Thread :=
  { t with pc := target, runs := [], wait := .none }

/-- The word completes. -/
def State.finish (s : State) (u : Nat) : State := s.modThread u Thread.advance
/-- Control transfers. -/
def State.jump (s : State) (u : Nat) (target : Word) : State := s.modThread u fun t => t.transfer target
/-- The thread waits. -/
def State.setWait (s : State) (u : Nat) (w : Wait) : State := s.modThread u fun t => { t with wait := w }

/-! ## Register names (R90 to R92), girt names (R184 to R186) and pending replies (R170, R436) -/

/-- The frame and bent number of a lane of a bent. -/
def State.bentOf (s : State) (t : Thread) : Option (Frame × Nat) :=
  match s.crew? t.crew with
  | none => none
  | some c =>
    match c.bent with
    | none => none
    | some (f, k) => (s.frame? f).map fun x => (x, k)
/-- The thread is a lane of a bent. -/
def State.inBent (s : State) (t : Thread) : Bool := (s.bentOf t).isSome
/-- The crew a thread's engine work counts for: a bent acts under its frame crew (R181). -/
def State.crewFor (s : State) (t : Thread) : Nat :=
  match s.bentOf t with
  | none => t.crew
  | some (f, _) => f.crew
/-- A thread's allotment in registers (R120). -/
def State.allot (s : State) (t : Thread) : Nat :=
  ((s.member? t.member).map fun m => 16 * m.desc.regs).getD 0
/-- The allotment register of a window name (R90). -/
def Thread.regIndex (t : Thread) (n : Name) : Nat := 16 * t.wb + n.toNat
/-- Slot and age of a girt name (R90). -/
def girtSlot (n : Name) : Nat := (n.toNat - 96) / 4
/-- The age of a girt name. -/
def girtAge (n : Name) : Nat := (n.toNat - 96) % 4
/-- The girt value of a bent, slot and lane. -/
def Frame.girt? (f : Frame) (k slot lane : Nat) : Option Girt :=
  f.ring.find? fun g => g.k == k && g.slot == slot && g.lane == lane
/-- Sets the girt value of its bent, slot and lane. -/
def Frame.setGirt (f : Frame) (g : Girt) : Frame :=
  { f with ring := upsert f.ring (fun x => x.k == g.k && x.slot == g.slot && x.lane == g.lane) g }
/-- A seed of a lane of the frame crew (R188). -/
def State.seedOf (s : State) (f : Frame) (lane slot : Nat) : Word :=
  ((s.threads.find? fun t => t.crew == f.crew && t.lane == lane).map fun t =>
    Map.get t.seeds slot).getD 0

/-- A read of slot `slot` at age 1 or more by lane `lane` of bent `k`: the value, or nothing while it
waits for the peg (R186). -/
def State.girtAged (s : State) (f : Frame) (k slot age lane : Nat) : Option Word :=
  if k < age then some (s.seedOf f lane slot)
  else match f.girt? (k - age) slot lane with
    | none => none
    | some g => if g.peg then some g.value else none

/-- A read of a girt name (R186): nothing while it waits. -/
def State.girtRead (s : State) (f : Frame) (k slot age lane : Nat) : Option Word :=
  if age = 0 then
    match f.girt? k slot lane with
    | none => s.girtAged f k slot 1 lane
    | some g =>
      if g.written then (if g.peg then some g.value else none) else s.girtAged f k slot 1 lane
  else s.girtAged f k slot age lane

/-- The value that a read of a girt name takes, with its writer's clock (R190). -/
def Frame.girtSource (f : Frame) (k slot age lane : Nat) : Option Girt :=
  let aged (a : Nat) : Option Girt := if k < a then none else f.girt? (k - a) slot lane
  if age = 0 then
    match f.girt? k slot lane with
    | none => aged 1
    | some g => if g.written then some g else aged 1
  else aged age

/-- What a single register field denotes for the thread that issues. -/
inductive Place where
  | zero
  | reg (index : Nat)
  | girt (frame : Frame) (k slot age : Nat)
  deriving DecidableEq, Repr

/-- What a single register field denotes (R90). -/
def State.place (s : State) (t : Thread) (n : Name) : Place :=
  if n = 0 then .zero
  else if n.toNat < 96 then .reg (t.regIndex n)
  else match s.bentOf t with
    | none => .reg (t.regIndex n)
    | some (f, k) => .girt f k (girtSlot n) (girtAge n)

/-- A single name is valid (R91). -/
def State.nameOk (s : State) (t : Thread) (n : Name) : Bool :=
  match s.place t n with
  | .zero => true
  | .reg i => decide (i < s.allot t)
  | .girt _ _ _ _ => true

/-- A read of a name must wait: for a reply due to its register (R170, R436) or for a peg (R186). -/
def State.nameWaits (s : State) (t : Thread) (n : Name) : Bool :=
  match s.place t n with
  | .zero => false
  | .reg i => t.marks.any fun m => m.1 == i
  | .girt f k g a => (s.girtRead f k g a t.lane).isNone

/-- The value of a name (R90, R186). -/
def State.name (s : State) (t : Thread) (n : Name) : Word :=
  match s.place t n with
  | .zero => 0
  | .reg i => Map.get t.regs i
  | .girt f k g a => (s.girtRead f k g a t.lane).getD 0

/-- The i-th name of a block. -/
def nameAt (n : Name) (i : Nat) : Name := n + BitVec.ofNat 7 i

/-- The value of a pair; a field of 0 reads 0 (R92). -/
def State.pair (s : State) (t : Thread) (n : Name) : DWord :=
  if n = 0 then 0 else pairWord (s.name t n) (s.name t (n + 1))

/-- The local aperture base (R89). -/
def localBase : DWord := 0xFFFFFF8000000000
/-- The cluster aperture base (R202). -/
def clusterBase : DWord := 0xFFFFFF8100000000

/-- The address pair of a thread's own access; a field of 0 selects the local aperture base (R92). -/
def State.addrPair (s : State) (t : Thread) (n : Name) : DWord :=
  if n = 0 then localBase else s.pair t n

/-- The values of a block of names. -/
def State.block (s : State) (t : Thread) (n : Name) (k : Nat) : List Word :=
  (List.range k).map fun i => s.name t (nameAt n i)

/-- Where a result for a name lands: what the name denotes now (R170, R185). -/
def State.slotOf (s : State) (t : Thread) (n : Name) : Slot :=
  match s.place t n with
  | .zero => .drop
  | .reg i => .reg i
  | .girt f k g _ => .girt f.fid k g t.lane

/-- Where the two words of a pair result land (R92). -/
def State.pairSlots (s : State) (t : Thread) (n : Name) : List Slot :=
  if n = 0 then [.drop, .drop] else [s.slotOf t n, s.slotOf t (n + 1)]

/-- Where the words of a block result land; a field of 0 discards them. -/
def State.blockSlots (s : State) (t : Thread) (n : Name) (k : Nat) : List Slot :=
  (List.range k).map fun i => if n = 0 then .drop else s.slotOf t (nameAt n i)

/-- What a thread knows: it happens before each later access of the thread. -/
def State.clkOf (s : State) (u : Nat) : Clock := ((s.thread? u).map (·.clk)).getD []

/-- What the lanes of the bent before had done when they passed the stages whose runs are open: it happens before the
accesses that a thread makes there (R190). -/
def Thread.stageOrder (t : Thread) : Clock :=
  t.runs.foldl (fun c r => if r.stageKind then Clock.join c ((assoc t.stageClk r.stage).getD []) else c) []

/-- What happens before a thread's next path T access (R190, R357). -/
def Thread.nextClk (t : Thread) : Clock := Clock.join t.clk t.stageOrder
/-- The same for the thread of a number. -/
def State.nextClk (s : State) (u : Nat) : Clock := ((s.thread? u).map Thread.nextClk).getD []

/-- The path T accesses that a thread has issued, with what happens before them (R190). -/
def Thread.accessClk (t : Thread) : Clock := pathClock t.issued .t
/-- The same for the thread of a number. -/
def State.accessClk (s : State) (u : Nat) : Clock := ((s.thread? u).map Thread.accessClk).getD []

/-- What a girt write carries: the accesses issued before it; a result that lands later was written when its word
issued (R185, R190). -/
def Frame.writeClk (f : Frame) (k slot lane : Nat) (now : Clock) : Clock :=
  match f.girt? k slot lane with
  | none => now
  | some g => if g.written && !g.peg then g.clk else now

/-- A value lands in its slot: a girt slot is written and pegged (R185). -/
def State.write (s : State) (u : Nat) (d : Slot) (v : Word) : State :=
  match d with
  | .drop => s
  | .reg i => s.modThread u fun t => { t with regs := Map.set t.regs i v }
  | .girt f k g l => s.modFrame f fun x => x.setGirt ⟨k, g, l, v, true, true, x.writeClk k g l (s.accessClk u)⟩

/-- Values land in their slots. -/
def State.writeAll (s : State) (u : Nat) (ds : List Slot) (vs : List Word) : State :=
  match ds, vs with
  | d :: ds, v :: vs => State.writeAll (s.write u d v) u ds vs
  | _, _ => s

/-- Writes a name of a thread. -/
def State.setName (s : State) (t : Thread) (n : Name) (v : Word) : State := s.write t.uid (s.slotOf t n) v
/-- Writes a pair of names of a thread. -/
def State.setPair (s : State) (t : Thread) (n : Name) (v : DWord) : State :=
  s.writeAll t.uid (s.pairSlots t n) [loWord v, hiWord v]
/-- A 32-bit result: the destination is written and the word completes. -/
def State.result (s : State) (t : Thread) (d : Name) (v : Word) : State := (s.setName t d v).finish t.uid
/-- A 64-bit result. -/
def State.resultPair (s : State) (t : Thread) (d : Name) (v : DWord) : State :=
  (s.setPair t d v).finish t.uid

/-- The value a predicate reads; p0 reads true (R93). -/
def Thread.pred (t : Thread) (k : BitVec 3) : Bool := k == 0 || t.preds.getLsbD k.toNat
/-- Writes a predicate; a write to p0 is discarded (R93). -/
def setPredBit (ps : BitVec 8) (k : BitVec 3) (v : Bool) : BitVec 8 :=
  if k = 0 then ps
  else if v then ps ||| (1#8 <<< k.toNat) else ps &&& ~~~(1#8 <<< k.toNat)
/-- A predicate result: the predicate is written and the word completes. -/
def State.resultPred (s : State) (t : Thread) (k : BitVec 3) (v : Bool) : State :=
  (s.modThread t.uid fun x => { x with preds := setPredBit x.preds k v }).finish t.uid

/-- A flight's result is due to these slots: registers are marked, girt slots count as written and
await their peg (R185, R436). -/
def State.markDue (s : State) (u flight : Nat) (ds : List Slot) : State :=
  match ds with
  | [] => s
  | d :: rest =>
    let s := match d with
      | .drop => s
      | .reg i => s.modThread u fun t => { t with marks := t.marks ++ [(i, flight)] }
      | .girt f k g l => s.modFrame f fun x => x.setGirt ⟨k, g, l, 0, false, true, s.accessClk u⟩
    State.markDue s u flight rest

/-- A flight's results land and its marks clear (R436). -/
def State.landDue (s : State) (u flight : Nat) (ds : List Slot) (vs : List Word) : State :=
  (s.writeAll u ds vs).modThread u fun t =>
    { t with marks := t.marks.filter fun m => m.2 != flight }

/-- A flight with a result due to a girt slot of one lane of a bent. -/
def Slot.isGirtOf (d : Slot) (fid k lane : Nat) : Bool :=
  match d with
  | .girt f k' _ l => f == fid && k' == k && l == lane
  | _ => false

/-- No result is due to a girt slot of a lane of bent `k` (R187). -/
def Frame.girtsLanded (f : Frame) (k lane : Nat) : Bool :=
  !(f.ring.any fun g => g.k == k && g.lane == lane && g.written && !g.peg)

/-! ## Crews (R130 to R132) -/

/-- The id of a crew as a program sees it (R130). -/
def Crew.idWord (c : Crew) : Word := 0x80000000 ||| BitVec.ofNat 32 (c.gen * 256 + c.index)

/-- Crews that count against a member's 1 + spcrews (R130). -/
def State.memberCrews (s : State) (m : Nat) : List Crew :=
  s.crews.filter fun c => c.member == m && c.bent.isNone
/-- Free crew entries of a core: those no crew holds and no frame has reserved (R130, R181). -/
def State.freeCrews (s : State) (core : Nat) : Nat :=
  let frames := s.frames.filter fun f => f.core == core
  let reserved := (frames.map fun f => f.d - f.bents.length).foldl (· + ·) 0
  256 - (s.crews.filter fun c => c.core == core).length - reserved

/-- A new empty crew at the lowest free entry of a core, which starts at generation 0 and advances on reuse (R130)
(DESIGN CHOICE 76). -/
def State.newCrew (s : State) (core member width : Nat) (bent : Option (Nat × Nat)) : State × Crew :=
  let used := (s.crews.filter fun c => c.core == core).map (·.index)
  let index := (lowestFree used 256).getD 0
  let gen := match assoc (s.core core).gens index with
    | none => 0
    | some g => (g + 1) % 65536
  let c : Crew := ⟨s.nextId, core, gen, index, member, width, bent, false, []⟩
  ((({ s with nextId := s.nextId + 1, crews := s.crews ++ [c] }).modCore core fun x =>
    { x with gens := assocSet x.gens index gen }), c)

/-- A crew can be made for a member on its core (R145). -/
def State.canMakeCrew (s : State) (m : Member) : Bool :=
  decide ((s.memberCrews m.id).length < 1 + m.desc.spcrews) && decide (0 < s.freeCrews m.core)

/-- The live crew of a member on a core that an id names (R146). -/
def State.crewById (s : State) (core member : Nat) (id : Word) : Option Crew :=
  s.crews.find? fun c => c.core == core && c.member == member && c.idWord == id

/-- The lanes of a crew that threads hold. -/
def State.heldLanes (s : State) (c : Nat) : List Nat := (s.crewThreads c).map (·.lane)
/-- The lowest free lane of a crew (R146). -/
def State.freeLane (s : State) (c : Crew) : Option Nat := lowestFree (s.heldLanes c.cid) c.width
/-- A crew is the frame crew of a running frame (R178). -/
def State.isFrameCrew (s : State) (c : Nat) : Bool := s.frames.any fun f => f.crew == c

/-- Array ownership ends at the moment its crew dissolves (R277) (DEDUCED 58). -/
def State.settleOwner (s : State) (core : Nat) : State :=
  match (s.core core).owner with
  | none => s
  | some c => if (s.crew? c).isNone then s.modCore core fun x => { x with owner := none } else s

/-- A crew that has held a thread and holds none now dissolves (R132). -/
def State.dissolveIfEmpty (s : State) (c : Nat) : State :=
  match s.crew? c with
  | none => s
  | some x =>
    if x.held && x.bent.isNone && (s.crewThreads c).isEmpty then
      State.settleOwner { s with crews := s.crews.filter fun y => y.cid != c } x.core
    else s

/-! ## What a thread has learnt and publishes (R357 to R367) -/

/-- Everything in the clock happens before each later access of the thread, on every path. -/
def Thread.learn (t : Thread) (c : Clock) : Thread :=
  { t with clk := Clock.join t.clk c, engClk := Clock.join t.engClk c }

/-- Everything in the clock happens before each later path T access of the thread, and before its engine commands
only through a fence (R190, R280, R368). -/
def Thread.follow (t : Thread) (c : Clock) : Thread := { t with clk := Clock.join t.clk c }

/-- What an `.acq` atomic or a KV step acquired happens before that access and each later one of the thread; its own
path T accesses reach its engine commands only through a fence (R280, R346, R357, R360). -/
def Thread.acquire (t : Thread) (c : Clock) : Thread :=
  { t with
    clk := Clock.join t.clk c
    issued := joinPath t.issued .t c
    engClk := Clock.join t.engClk (c.filter fun x => x.1 != agentT t.uid && x.1 != agentA t.uid) }

/-- A path T access of a thread: a new epoch of its agent, in program order after its earlier ones; all
that happens before it goes with it through a fence, what was done before the open stages among it (R190, R355,
R368). -/
def Thread.tick (t : Thread) (agent : Nat) : Thread :=
  let clk := Clock.raise t.nextClk agent (Clock.get t.clk agent + 1)
  { t with clk := clk, issued := joinPath t.issued .t clk }

/-- Every access a thread has made on any path: what a phase boundary publishes (R359). -/
def Thread.allIssued (t : Thread) : Clock :=
  t.issued.foldl (fun acc x => Clock.join acc x.2) (Clock.join t.clk t.engClk)

/-- Everything that threads have done on every path (R359). -/
def boundaryClock (ts : List Thread) : Clock := ts.foldl (fun c t => Clock.join c t.allIssued) []

/-! ## Ends (R63, R76, R137) -/

/-- The stop is a pre-emption's. -/
def Stop.yields (x : Stop) : Bool := x == .preempt || x == .saving

/-- A member leaves Running: its issue cycles are counted (R76). -/
def Member.stopClock (m : Member) (now : DWord) : Member :=
  { m with used := m.used + (now - m.runSince).toNat, runSince := now }

/-- A Running member without threads is Done, once a resume of it has ended: a stop of it that has not come to its end
is over, and a crew of it that no thread has joined ends (R63, R132, R424). -/
def State.doneIfEmpty (s : State) (m : Nat) : State :=
  match s.member? m with
  | none => s
  | some x =>
    if x.st = .running ∧ x.divert.isNone ∧ (s.memberThreads m).isEmpty then
      { s with crews := s.crews.filter fun c => c.member != m || c.held }.modMember m fun x =>
        { x.stopClock s.clock with st := .done, stop := .none, endCode := 0 }
    else s

/-- The result slots of flights due to a thread are dropped: its replies are discarded (R137). -/
def State.discardReplies (s : State) (u : Nat) : State :=
  { s with flights := s.flights.map fun f => { f with uids := f.uids.filter fun x => x != u } }

/-- Replies due to the window names of an ended bent lane are discarded (R187). -/
def State.discardWindow (s : State) (u : Nat) : State :=
  { s with flights := s.flights.map fun f =>
      if f.uids == [u] then { f with dst := f.dst.map fun d =>
        match d with | .reg _ => .drop | d => d } else f }

/-- A lane has passed the stages below its new position: what it had done is noted for each (R183,
R190). -/
def Bent.passTo (b : Bent) (lane stage : Nat) (clk : Clock) : Bent :=
  let old := (assoc b.top lane).getD 0
  if stage ≤ old then { b with top := assocSet b.top lane old }
  else
    let note (p : List (Nat × Clock)) (g : Nat) : List (Nat × Clock) :=
      if old ≤ g ∧ g < stage then assocSet p g (Clock.join ((assoc p g).getD []) clk) else p
    { b with top := assocSet b.top lane stage, passed := (List.range 8).foldl note b.passed }

/-- Changes one bent of a frame. -/
def State.modBent (s : State) (f : Frame) (k : Nat) (g : Bent → Bent) : State :=
  s.modFrame f.fid fun x => { x with bents := updateIf x.bents (fun b => b.k == k) g }

/-- A lane of a bent comes to a stage (8 is past every stage); what it had issued is noted (R183, R190). -/
def State.passStage (s : State) (t : Thread) (f : Frame) (k stage : Nat) : State :=
  let clk := s.accessClk t.uid
  (s.modBent f k fun b => b.passTo t.lane stage clk).modThread t.uid fun x => { x with
    reached := Nat.max x.reached stage }

/-- A thread ends as EXIT does (R137): runs and join label are discarded, lane, slot and registers are
freed, replies due are discarded. A lane of a bent ends only that lane, past every stage (R183, R187). -/
def State.endThread (s : State) (u : Nat) : State :=
  match s.thread? u with
  | none => s
  | some t =>
    match s.bentOf t with
    | some (f, k) =>
      (((s.passStage t f k 8).modBent f k fun b => { b with ended := b.ended ++ [t.lane] }).discardWindow
        u).modThread u fun t =>
          { t with runs := [], join := none, pause := none, monitor := none, marks := [], wait := .ended }
    | none =>
      let s := s.modMember t.member fun m => { m with did := Clock.join m.did t.allIssued }
      let s := s.modCrew t.crew fun c => { c with did := Clock.join c.did t.allIssued }
      ((({ s with threads := s.threads.filter fun x => x.uid != u }).discardReplies u).dissolveIfEmpty
        t.crew).doneIfEmpty t.member

/-! ## Traps (R418 to R424) -/

/-- Bits of a number at a position. -/
def field (x : Nat) (shift width : Nat) : Word := BitVec.ofNat 32 ((x % 2 ^ width) * 2 ^ shift)

/-- `xstat` of the open guard runs (R421). -/
def runsWord (rs : List Run) : Word :=
  match rs with
  | [] => 0
  | [o] => field 1 31 1 ||| field (if o.stageKind then 1 else 0) 30 1 ||| field o.left 24 6 |||
      field (if o.stageKind then o.stage else 0) 13 3
  | o :: i :: _ => field 1 31 1 ||| field (if o.stageKind then 1 else 0) 30 1 ||| field o.left 24 6 |||
      field 1 23 1 ||| field (if i.stageKind then 1 else 0) 22 1 ||| field i.left 16 6 |||
      field (if o.stageKind then o.stage else 0) 13 3 ||| field (if i.stageKind then i.stage else 0) 10 3

/-- The guard runs that `xstat` records (R421). -/
def wordRuns (x : Word) : List Run :=
  let outer : Run := ⟨x.getLsbD 30, (x.extractLsb' 13 3).toNat, (x.extractLsb' 24 6).toNat⟩
  let inner : Run := ⟨x.getLsbD 22, (x.extractLsb' 10 3).toNat, (x.extractLsb' 16 6).toNat⟩
  if x.getLsbD 31 then (if x.getLsbD 23 then [outer, inner] else [outer]) else []

/-- One run's fields of `xstat` are valid: all zero when it is closed, else a count of 1 to 32, a stage
only with the stage kind, which occurs only in a bent (R421). -/
def runFieldsOk (isOpen kind : Bool) (count stage : Nat) (bent : Bool) : Bool :=
  if isOpen then decide (1 ≤ count ∧ count ≤ 32) && (kind || stage == 0) && (bent || !kind)
  else !kind && count == 0 && stage == 0

/-- A value is valid for `xstat` (R421), its reserved bits zero. -/
def xstatOk (x : Word) (bent : Bool) : Bool :=
  let ov := x.getLsbD 31
  let iv := x.getLsbD 23
  let oc := (x.extractLsb' 24 6).toNat
  let ic := (x.extractLsb' 16 6).toNat
  (x.extractLsb' 0 10 == 0) && (ov || !iv) &&
  runFieldsOk ov (x.getLsbD 30) oc (x.extractLsb' 13 3).toNat bent &&
  runFieldsOk iv (x.getLsbD 22) ic (x.extractLsb' 10 3).toNat bent && (!iv || decide (ic ≤ oc))

/-- `xcause` (R420). -/
def causeWord (cause : Nat) (asynchronous deferred rec : Bool) : Word :=
  field cause 0 9 ||| field (if asynchronous then 1 else 0) 31 1 |||
  field (if deferred then 1 else 0) 30 1 ||| field (if rec then 1 else 0) 29 1

/-- A thread that has evaluated a live prefix whose first word has not issued: they issue in one slot, so the thread
stands at the prefix again (R97) (DEDUCED 97). -/
def Thread.uncover (t : Thread) : Thread :=
  match t.wait with
  | .covered pc runs reached => { t with pc := pc, runs := runs, reached := reached, wait := .none }
  | _ => t

/-- A thread enters its handler in one indivisible step (R423). -/
def Thread.enterHandler (t : Thread) (handler : Word) (cause : Nat) (addr : DWord)
    (asynchronous deferred : Bool) (progress : Option Progress) : Thread :=
  { t with
    xpc := t.pc
    xaddr := addr
    xcause := causeWord cause asynchronous deferred progress.isSome
    latched := progress
    xstat := runsWord t.runs
    runs := []
    join := none
    pause := none
    busy := true
    traps := Nat.min (t.traps + 1) 0xFFFF
    wait := .none
    pc := handler }

/-- A bent's latched liveness of a stage, or what its region would latch now (R182). -/
def Frame.stageLive (f : Frame) (k g : Nat) : Bool :=
  match (f.bents.find? fun b => b.k == k).bind fun b => assoc b.latched g with
  | some v => v
  | none => decide (g ≤ k) && decide (k < f.n + g)

/-- What the lanes of the bent before had done when they passed a stage, whether that bent lives or has retired
(R190). -/
def Frame.passedBefore (f : Frame) (k g : Nat) : Clock :=
  let passed := match f.bents.find? fun b => b.k + 1 == k with
    | some b => b.passed
    | none => if k = 0 then [] else f.last
  (assoc passed g).getD []

/-- A lane of a bent executes an SGUARD: the bent latches the stage once, and the lane comes to it (R182, R183). -/
def State.latchStage (s : State) (t : Thread) (f : Frame) (k g : Nat) (live : Bool) : State :=
  (s.modBent f k fun b => { b with latched := assocSet b.latched g live }).passStage t f k g

/-- A thread takes a trap (R423): a synchronous one while busy ends the thread and is recorded as cause
0x182 with its own; a lane of a bent ends only once its girt results have landed (R187). -/
def State.trap (s : State) (u cause : Nat) (addr : DWord) : State :=
  match s.thread? u with
  | none => s
  | some t =>
    match s.member? t.member with
    | none => s
    | some m =>
      if t.busy then
        match s.bentOf t with
        | some (f, k) =>
          if f.girtsLanded k t.lane then (s.recordLoss t m 0x182 cause).endThread u else s
        | none => (s.recordLoss t m 0x182 cause).endThread u
      else
        ((s.modThread u fun t => t.enterHandler (s.handlerOf m) cause addr false false none).countTrap
          cause).snapOnCause m t.core t.tid cause

/-- A trap would end a lane of a bent that is in its handler, and waits for the results due to the lane's girt
slots (R187, R424). -/
def State.trapHeld (s : State) (u : Nat) : Bool :=
  match s.thread? u with
  | none => false
  | some t => t.busy && match s.bentOf t with
    | some (f, k) => !f.girtsLanded k t.lane
    | none => false

/-- A thread takes the first cause of its pending queue; `xpc` is the word whose slot it is, a live prefix where
the word is the first that it covers (R97, R419, R423). -/
def State.trapPending (s : State) (u : Nat) : State :=
  match s.thread? u with
  | none => s
  | some t =>
    match s.member? t.member, t.pendq with
    | some m, p :: rest =>
      ((s.modThread u fun t =>
        { t.uncover.enterHandler (s.handlerOf m) p.cause p.addr true p.deferred p.progress with
          pendq := rest }).countTrap p.cause).snapOnCause m t.core t.tid p.cause
    | _, _ => s

/-- Return from the handler (R445): the runs that `xstat` records reopen, busy clears. -/
def Thread.returnFromHandler (t : Thread) (target : Word) : Thread :=
  { t with runs := wordRuns t.xstat, busy := false, pc := target, wait := .none }

/-- An asynchronous cause for a thread (R419, R435): into its pending queue of 8, or the member's
deferred list of 256 while the member is away; one that finds no room is recorded as cause 0x183. -/
def State.postCause (s : State) (u : Nat) (p : Pending) : State :=
  match s.thread? u with
  | none => s
  | some t =>
    match s.member? t.member with
    | none => s
    | some m =>
      if m.divert.isSome then
        if m.deferred.length < 256 then
          s.modMember m.id fun x => { x with deferred := x.deferred ++ [(u, p)] }
        else s.recordLoss t m 0x183 p.cause
      else if t.pendq.length < 8 then
        s.modThread u fun t => { t with pendq := t.pendq ++ [p] }
      else s.recordLoss t m 0x183 p.cause

/-- Posts a cause to the live thread of lowest `%tid` among some, or records it in the member's end
status when there is none (R316, R474). -/
def State.postLowest (s : State) (member : Nat) (ts : List Thread) (p : Pending) : State :=
  match minBy ts (·.tid) with
  | some t => s.postCause t.uid p
  | none => s.recordFault member p.cause

end Sys2Proof.Machine
end

