-- ==== Sys2Proof/Machine/Operands.lean ====
section
/-! DEFINITION. The operand forms: which register fields each word has and how each is read or written
(R90 to R93 and the encoding table of each chapter), the checks before a word takes effect (R95), and the
one shape of issuing a word that every meaning is written over. -/
namespace Sys2Proof.Machine

open Sys2Proof

/-- A register field of a word: a single name read, written or both; a pair, with `addr` the address
pair of the thread's own access, and `bothPair` the two names of ACAS, which are 0 and 1 where the field is 0 (R377); a
block of names; the data of a 16-byte access; the shape block of a
copy (R90 to R92, R298). -/
inductive Operand where
  | src (n : Name)
  | dst (n : Name)
  | both (n : Name)
  | srcPair (n : Name)
  | dstPair (n : Name)
  | bothPair (n : Name)
  | addr (n : Name)
  | srcQuad (n : Name)
  | dstQuad (n : Name)
  | srcBlock (n : Name) (k : Nat)
  | dstBlock (n : Name) (k : Nat)
  | bothBlock (n : Name) (k : Nat)
  | shape (n : Name)
  deriving DecidableEq, Repr

/-- R263: conversions whose narrow side is the target also read the destination. -/
def cvtIntoElement (k : BitVec 4) : Bool := decide (k.toNat < 5) || k == 7 || k == 8

/-- The register fields of each word. SVLIST's block is the whole sieve block of R348, b to b + 6, though it reads
only b to b + 3 (DEDUCED 69). -/
def operandsOf (i : Instr) : List Operand :=
  match i with
  | .nop => []
  | .exit => []
  | .yield => []
  | .bi a b => [.addr a, .src b]
  | .calli a b => [.addr a, .src b, .dst 31]
  | .ret a => [.src a]
  | .pause a _ => [.src a]
  | .b _ _ => []
  | .bn _ _ => []
  | .jmp _ => []
  | .call _ => [.dst 31]
  | .guard _ _ => []
  | .guardn _ _ => []
  | .crewnew d a => [.dst d, .src a]
  | .join d a => [.dst d, .src a]
  | .leave d => [.dst d]
  | .rejoin a => [.srcPair a]
  | .crewq d a _ => [.dst d, .src a]
  | .ballot d a _ => [.dstPair d, .srcPair a]
  | .frame a b => [.src a, .src b]
  | .frameend => []
  | .fbreak => []
  | .gseed _ a => [.src a]
  | .gcollect d _ => [.dst d]
  | .gpres _ _ => []
  | .sguard _ _ => []
  | .add d a b => [.dst d, .src a, .src b]
  | .sub d a b => [.dst d, .src a, .src b]
  | .mul d a b => [.dst d, .src a, .src b]
  | .mulh d a b => [.dst d, .src a, .src b]
  | .mulhu d a b => [.dst d, .src a, .src b]
  | .mulw d a b => [.dstPair d, .src a, .src b]
  | .div d a b => [.dst d, .src a, .src b]
  | .divu d a b => [.dst d, .src a, .src b]
  | .rem d a b => [.dst d, .src a, .src b]
  | .remu d a b => [.dst d, .src a, .src b]
  | .and d a b => [.dst d, .src a, .src b]
  | .or d a b => [.dst d, .src a, .src b]
  | .xor d a b => [.dst d, .src a, .src b]
  | .andn d a b => [.dst d, .src a, .src b]
  | .shl d a b => [.dst d, .src a, .src b]
  | .shr d a b => [.dst d, .src a, .src b]
  | .sra d a b => [.dst d, .src a, .src b]
  | .rol d a b => [.dst d, .src a, .src b]
  | .min d a b => [.dst d, .src a, .src b]
  | .max d a b => [.dst d, .src a, .src b]
  | .minu d a b => [.dst d, .src a, .src b]
  | .maxu d a b => [.dst d, .src a, .src b]
  | .clz d a => [.dst d, .src a]
  | .popc d a => [.dst d, .src a]
  | .brev d a => [.dst d, .src a]
  | .add64 d a b => [.dstPair d, .srcPair a, .srcPair b]
  | .sub64 d a b => [.dstPair d, .srcPair a, .srcPair b]
  | .sel _ d a b => [.dst d, .src a, .src b]
  | .cmp _ _ a b => [.src a, .src b]
  | .addi d a _ => [.dst d, .src a]
  | .andi d a _ => [.dst d, .src a]
  | .ori d a _ => [.dst d, .src a]
  | .xori d a _ => [.dst d, .src a]
  | .shli d a _ => [.dst d, .src a]
  | .shri d a _ => [.dst d, .src a]
  | .srai d a _ => [.dst d, .src a]
  | .muli d a _ => [.dst d, .src a]
  | .li d _ => [.dst d]
  | .lih d _ => [.both d]
  | .cmpi _ _ a _ => [.src a]
  | .pand _ _ _ => []
  | .por _ _ _ => []
  | .pxor _ _ _ => []
  | .pnot _ _ => []
  | .pget d => [.dst d]
  | .pset a => [.src a]
  | .wbase a => [.src a]
  | .wbaseq d => [.dst d]
  | .mfs d s => [if s == 0x0B || s == 0x0E then .dstPair d else .dst d]
  | .mts _ b => [.src b]
  | .ldB d b _ => [.dst d, .addr b]
  | .ldBs d b _ => [.dst d, .addr b]
  | .ldH d b _ => [.dst d, .addr b]
  | .ldHs d b _ => [.dst d, .addr b]
  | .ldW d b _ => [.dst d, .addr b]
  | .ldD d b _ => [.dstPair d, .addr b]
  | .ldQ d b _ => [.dstQuad d, .addr b]
  | .prfm _ b _ => [.addr b]
  | .stB d b _ => [.src d, .addr b]
  | .stH d b _ => [.src d, .addr b]
  | .stW d b _ => [.src d, .addr b]
  | .stD d b _ => [.srcPair d, .addr b]
  | .stQ d b _ => [.srcQuad d, .addr b]
  | .ldxB d a b => [.dst d, .addr a, .src b]
  | .ldxBs d a b => [.dst d, .addr a, .src b]
  | .ldxH d a b => [.dst d, .addr a, .src b]
  | .ldxHs d a b => [.dst d, .addr a, .src b]
  | .ldxW d a b => [.dst d, .addr a, .src b]
  | .ldxD d a b => [.dstPair d, .addr a, .src b]
  | .ldxQ d a b => [.dstQuad d, .addr a, .src b]
  | .stxB d a b => [.src d, .addr a, .src b]
  | .stxH d a b => [.src d, .addr a, .src b]
  | .stxW d a b => [.src d, .addr a, .src b]
  | .stxD d a b => [.srcPair d, .addr a, .src b]
  | .stxQ d a b => [.srcQuad d, .addr a, .src b]
  | .aptest d a => [.dst d, .srcPair a]
  | .apcvtOff d a => [.dstPair d, .srcPair a]
  | .apcvtLoc d a => [.dstPair d, .srcPair a]
  | .apcvtClu d a => [.dstPair d, .srcPair a]
  | .mapset d a b => [.src d, .srcPair a, .src b]
  | .maprel a => [.src a]
  | .mapflush a => [.src a]
  | .mapfill a b => [.src a, .src b]
  | .mmovW a b => [.addr a, .addr b]
  | .mswpW a b => [.addr a, .addr b]
  | .aadd d a m => [if m.nr then .src d else .both d, .addr a]
  | .amin d a m => [if m.nr then .src d else .both d, .addr a]
  | .amax d a m => [if m.nr then .src d else .both d, .addr a]
  | .aand d a m => [if m.nr then .src d else .both d, .addr a]
  | .aor d a m => [if m.nr then .src d else .both d, .addr a]
  | .axor d a m => [if m.nr then .src d else .both d, .addr a]
  | .axchg d a m => [if m.nr then .src d else .both d, .addr a]
  | .acas d a _ => [.bothPair d, .addr a]
  | .acas64 d a _ => [.bothBlock d 4, .addr a]
  | .afadd d a m => [if m.nr then .src d else .both d, .addr a]
  | .afmax d a m => [if m.nr then .src d else .both d, .addr a]
  | .phase => []
  | .fence _ _ => []
  | .tbar _ b => [.src b]
  | .tbarP _ b => [.src b]
  | .tbara d _ b => [.dst d, .src b]
  | .tbaraP d _ b => [.dst d, .src b]
  | .tbarw _ b => [.src b]
  | .tbarwP _ b => [.src b]
  | .monitor d a => [.dst d, .addr a]
  | .mwaitm d a => [.dst d, .src a]
  | .fadd _ _ d a b => [.dst d, .src a, .src b]
  | .fsub _ _ d a b => [.dst d, .src a, .src b]
  | .fmul _ _ d a b => [.dst d, .src a, .src b]
  | .ffma _ _ d a b => [.both d, .src a, .src b]
  | .fmin _ d a b => [.dst d, .src a, .src b]
  | .fmax _ d a b => [.dst d, .src a, .src b]
  | .fneg _ d a => [.dst d, .src a]
  | .fabs _ d a => [.dst d, .src a]
  | .frcp d a => [.dst d, .src a]
  | .frsq d a => [.dst d, .src a]
  | .fexp2 d a => [.dst d, .src a]
  | .flog2 d a => [.dst d, .src a]
  | .fcmp _ _ a b => [.src a, .src b]
  | .cvt _ d a k _ => [if cvtIntoElement k then .both d else .dst d, .src a]
  | .cvts _ d a k _ => [if cvtIntoElement k then .both d else .dst d, .src a]
  | .cvtt d a k _ => [if cvtIntoElement k then .both d else .dst d, .src a]
  | .bscale _ d a b => [.both d, .src a, .src b]
  | .padd16s d a b => [.dst d, .src a, .src b]
  | .psub16s d a b => [.dst d, .src a, .src b]
  | .pmul16 d a b => [.dst d, .src a, .src b]
  | .pmax16 d a b => [.dst d, .src a, .src b]
  | .pmin16 d a b => [.dst d, .src a, .src b]
  | .pmac16 d a b => [.both d, .src a, .src b]
  | .shrrsS16 d a b => [.dst d, .src a, .src b]
  | .shrrsS8 d a b => [.dst d, .src a, .src b]
  | .shrrsN8 d a b => [.dst d, .src a, .src b]
  | .satrd d => [.dst d]
  | .satcl => []
  | .shfl d a b => [.dst d, .src a, .src b]
  | .xred _ d a => [.dst d, .src a]
  | .xscan _ d a => [.dst d, .src a]
  | .slideDn _ d a b => [.dst d, .src a, .src b]
  | .slideUp _ d a b => [.dst d, .src a, .src b]
  | .mcfg _ a b => [.src a, .src b]
  | .mrdc d _ => [.dstPair d]
  | .mld _ a b => [.src a, .srcPair b]
  | .mst _ a b => [.src a, .srcPair b]
  | .macq d => [.dst d]
  | .mrel => []
  | .mma _ _ => []
  | .mzero => []
  | .shiftout _ => []
  | .shiftin _ => []
  | .accclr _ => []
  | .drainqBf16 d a b => [.src d, .srcPair a, .srcBlock b 4]
  | .drainqE4m3 d a b => [.src d, .srcPair a, .srcBlock b 4]
  | .drainqE5m2 d a b => [.src d, .srcPair a, .srcBlock b 4]
  | .drainqE2m1 d a b => [.src d, .srcPair a, .srcBlock b 4]
  | .cpy d a b => [.srcPair d, .srcPair a, .shape b]
  | .cpym d a b => [.src d, .srcPair a, .shape b]
  | .cpyaOut _ a b => [.src a, .srcPair b]
  | .cpyaIn _ a b => [.src a, .srcPair b]
  | .cpynPut d a b => [.srcPair d, .srcPair a, .shape b]
  | .cpynGet d a b => [.srcPair d, .srcPair a, .shape b]
  | .binit a b => [.addr a, .src b]
  | .bexp a b => [.addr a, .src b]
  | .barr a b => [.addr a, .src b]
  | .bwait d a b => [.dst d, .addr a, .src b]
  | .btest _ a b => [.addr a, .src b]
  | .stadv d a => [.dst d, .src a]
  | .ringpushClaim d _ => [.dst d]
  | .ringpushFill _ b => [.src b]
  | .ringpopTake d _ => [.dst d]
  | .ringpopFree _ b => [.src b]
  | .ringq d _ _ => [.dst d]
  | .ringsub d a => [.dst d, .srcBlock a 2]
  | .ringsubIn d a => [.dst d, .srcBlock a 8]
  | .ringsubOut d a => [.dst d, .srcBlock a 8]
  | .spawn d a b => [.dst d, .src a, .src b, .srcBlock 1 16]
  | .yput d a b => [.dstPair d, .src a, .srcBlock b 4]
  | .jnew d a => [.dst d, .src a]
  | .jdec d a b => [.dst d, .src a, .src b]
  | .ycancel d a => [.dst d, .srcPair a]
  | .kvlook d a => [.dstPair d, .srcBlock a 3]
  | .kvalloc d a => [.dstPair d, .srcBlock a 5]
  | .kvfree d a => [.dst d, .srcBlock a 3]
  | .kvshare d a b => [.dst d, .src a, .srcBlock b 2]
  | .skset _ b => [.src b]
  | .sieve _ b => [.srcBlock b 7]
  | .svlist d b => [.both d, .srcBlock b 7]
  | .dfopen d a => [.dst d, .srcBlock a 3]
  | .dfmark d a => [.dst d, .srcBlock a 6]
  | .dfkeep d a => [.dst d, .srcBlock a 3]
  | .dfdrop d a => [.dst d, .srcBlock a 2]
  | .dfq d a => [.dstPair d, .src a]
  | .trap a _ => [.src a]
  | .rett a => [.src a]
  | .mfx d a => [if a == 2 then .dstPair d else .dst d]
  | .mtx a b => [if a == 2 then .srcPair b else .src b]
  | .snap d a => [.dst d, .src a]
  | .bkpt _ => []
  | .fltq d => [.dstBlock d 8]
  | .load => []
  | .patch => []
  | .unload => []
  | .launch => []
  | .cancel => []
  | .usage => []
  | .attest => []
  | .status => []
  | .jsig => []
  | .move => []
  | .partcfg => []
  | .acctcfg => []
  | .fwupd => []
  | .unknownRequest => []
  | .droppedPacket => []
  | .rmaPut => []
  | .rmaGet => []
  | .rmaAtomic => []
  | .boot => []
  | .i3cJournalRead => []
  | .i3cFirmwareWrite => []
  | .i3cReset => []
  | .roomReport => []
  | .usageInterval => []
  | .sectionAdvertise => []
  | .migrationSend => []
  | .migrationReceive => []
  | .migrationReply => []
  | .jointDecrement => []
  | .memberRegister => []
  | .yputRequest => []
  | .cancelMark => []
  | .memberCancelStop => []
  | .dispatch => []
  | .redispatch => []
  | .preempt => []
  | .memberStop => []
  | .resume => []
  | .regionRestore => []
  | .runLimit => []
  | .gatheringRelease => []
  | .phaseBoundary => []
  | .joinHoldTimeout => []
  | .pauseWindowClose => []
  | .coreClockGate => []
  | .coreWake => []
  | .wakeEnd => []
  | .tagBarrierRelease => []
  | .bentCreate => []
  | .bentRetire => []
  | .asyncTrapTake => []
  | .pageFaultService => []
  | .replyLand => []
  | .copyStart => []
  | .copyComplete => []
  | .copyFailureEnd => []
  | .scheduleEntryStart => []
  | .barrierArrival => []
  | .mldExecute => []
  | .mstExecute => []
  | .mmaExecute => []
  | .mzeroExecute => []
  | .shiftoutExecute => []
  | .shiftinExecute => []
  | .accclrExecute => []
  | .drainqExecute => []
  | .matrixCommandFailure => []
  | .sksetExecute => []
  | .sieveExecute => []
  | .sieveCommandFailure => []
  | .infeedTile => []
  | .outfeedTile => []
  | .mapFillComplete => []
  | .mapFillFail => []
  | .kvUnitStep => []
  | .pageEvict => []
  | .pagePromote => []
  | .entryPoison => []
  | .translationInvalidate => []
  | .heatSweep => []
  | .memberQuiesced => []
  | .retireRelease => []
  | .usageFlashWrite => []
  | .snapshotNymesque => []
  | .snapshotCollect => []
  | .powerLoss => []
  | .linkRetrain => []
  | .correctableError => []
  | .writePerformedAtHome => []
  | .translationWalkEnd => []
  | .tagBarrierArrival => []

/-! ## Checks 9 and 10 of R95 -/

/-- A block of k names starting at n is valid: n at least 1, the last name at most 127, or 95 in a lane
of a bent, and every name valid (R91, R92). -/
def State.blockOk (s : State) (t : Thread) (n : Name) (k : Nat) : Bool :=
  n != 0 && decide (n.toNat + k ≤ if s.inBent t then 96 else 128) &&
    (List.range k).all fun i => s.nameOk t (nameAt n i)

/-- Check 9: a single register name is valid (R91). -/
def Operand.nameOk (o : Operand) (s : State) (t : Thread) : Bool :=
  match o with
  | .src n => s.nameOk t n
  | .dst n => s.nameOk t n
  | .both n => s.nameOk t n
  | _ => true

/-- The joint flag of a shape block (R298). -/
def State.shapeJoint (s : State) (t : Thread) (n : Name) : Bool := (s.name t (nameAt n 3)).getLsbD 29

/-- Check 10: a pair field or register block is valid (R92); a shape block's fifth name counts once its
joint flag is known to be set (R298). -/
def Operand.blockOk (o : Operand) (s : State) (t : Thread) : Bool :=
  match o with
  | .src _ => true
  | .dst _ => true
  | .both _ => true
  | .srcPair n => n == 0 || s.blockOk t n 2
  | .dstPair n => n == 0 || s.blockOk t n 2
  | .bothPair n => if n = 0 then s.nameOk t 1 else s.blockOk t n 2
  | .addr n => n == 0 || s.blockOk t n 2
  | .srcQuad n => n == 0 || s.blockOk t n 4
  | .dstQuad n => n == 0 || s.blockOk t n 4
  | .srcBlock n k => s.blockOk t n k
  | .dstBlock n k => s.blockOk t n k
  | .bothBlock n k => s.blockOk t n k
  | .shape n => s.blockOk t n 4 && (!s.inBent t || decide (n.toNat + 4 ≤ 95)) &&
      (s.nameWaits t (nameAt n 3) || !s.shapeJoint t n || s.blockOk t n 5)

/-- A name of a block is still due. -/
def State.blockWaits (s : State) (t : Thread) (n : Name) (k : Nat) : Bool :=
  (List.range k).any fun i => s.nameWaits t (nameAt n i)

/-- A register that a word writes still has a reply due (DEDUCED 12). -/
def State.destWaits (s : State) (t : Thread) (n : Name) : Bool :=
  match s.place t n with
  | .reg i => t.marks.any fun m => m.1 == i
  | _ => false

/-- The word must wait for this operand (R122, R170, R186, R436). -/
def Operand.waits (o : Operand) (s : State) (t : Thread) : Bool :=
  match o with
  | .src n => s.nameWaits t n
  | .dst n => s.destWaits t n
  | .both n => s.nameWaits t n
  | .srcPair n => n != 0 && s.blockWaits t n 2
  | .dstPair n => n != 0 && s.blockWaits t n 2
  | .bothPair n => s.blockWaits t n 2
  | .addr n => n != 0 && s.blockWaits t n 2
  | .srcQuad n => n != 0 && s.blockWaits t n 4
  | .dstQuad n => n != 0 && s.blockWaits t n 4
  | .srcBlock n k => s.blockWaits t n k
  | .dstBlock n k => s.blockWaits t n k
  | .bothBlock n k => s.blockWaits t n k
  | .shape n => s.blockWaits t n 4 || (s.shapeJoint t n && s.nameWaits t (nameAt n 4))

/-- A write to a girt name: of age 0 and once in a bent (R185); otherwise the cause. -/
def Operand.girtCause (o : Operand) (s : State) (t : Thread) : Option Nat :=
  let name? : Option Name := match o with
    | .dst n => some n
    | .both n => some n
    | _ => none
  match name? with
  | none => none
  | some n =>
    match s.place t n with
    | .girt f k g a =>
      if a ≠ 0 then some 0x107
      else match f.girt? k g t.lane with
        | some x => if x.written then some 0x108 else none
        | none => none
    | _ => none

/-- The register field that a girt cause names in `xaddr` (R201). -/
def Operand.girtName (o : Operand) : Nat :=
  match o with
  | .dst n => n.toNat
  | .both n => n.toNat
  | _ => 0

/-! ## Checks 5, 6 and 11 of R95 -/

/-- The major of a word (R87). -/
def wordMajor (w : Word) : Nat := (w.extractLsb' 27 5).toNat
/-- The func of a format A word (R87). -/
def wordFunc (w : Word) : Nat := (w.extractLsb' 21 6).toNat

/-- Check 5: the word's engine is absent on the core. -/
def engineAbsent (m : Bool) (w : Word) : Bool :=
  let j := wordMajor w
  if m then j == 0x1D else j == 0x16 || j == 0x17 || j == 0x18

/-- Check 6: the feature mask hides the word (R46 and the chapters' own words). -/
def maskHides (mask : Word) (w : Word) : Bool :=
  let j := wordMajor w
  let f := wordFunc w
  (mask.getLsbD 0 && (j == 0x16 || j == 0x17 || j == 0x18 || (j == 0x19 && (f == 3 || f == 4)))) ||
  (mask.getLsbD 1 && j == 0x18 && (f == 5 || f == 6)) ||
  (mask.getLsbD 2 && j == 0x18 && f == 7) ||
  (mask.getLsbD 3 && j == 0x1D) ||
  (mask.getLsbD 4 && j == 0x1C) ||
  (mask.getLsbD 5 && j == 0x1E) ||
  (mask.getLsbD 6 && j == 0x19 && (f == 5 || f == 6)) ||
  (mask.getLsbD 7 && j == 0x1A && (f == 0x19 || f == 0x1A)) ||
  (mask.getLsbD 8 && j == 0x0E && (f == 0x18 || f == 0x19 || f == 0x1A || f == 0x1B)) ||
  (mask.getLsbD 9 && j == 0x1B && (f == 1 || f == 2)) ||
  (mask.getLsbD 10 && j == 0 && (f == 0x24 || f == 0x25))

/-- The feature mask a thread's member runs under (R46). -/
def State.maskOf (s : State) (t : Thread) : Word := ((s.member? t.member).map (·.mask)).getD 0

/-- Checks 5 and 6 of a word for a thread. -/
def State.wordCause (s : State) (t : Thread) (w : Word) : Option Nat :=
  if engineAbsent (isM t.core) w then some 0x005
  else if maskHides (s.maskOf t) w then some 0x006
  else none

/-- The words of the version a thread runs (R84). -/
def State.wordsOf (s : State) (t : Thread) : List Word :=
  (((s.member? t.member).bind s.versionOf).map (·.words)).getD []

/-- A word that no guard run may cover: FRAME, FRAMEEND and PHASE (R99). -/
def uncoverable (w : Word) : Bool :=
  match decode w with
  | .ok (.frame _ _) => true
  | .ok .frameend => true
  | .ok .phase => true
  | _ => false

/-- A prefix that covers `c` words breaks a run limit (R99). -/
def State.breaksRunLimit (s : State) (t : Thread) (c : Nat) : Bool :=
  (match t.runs with
    | [] => false
    | [o] => decide (o.left < c + 1)
    | _ => true) ||
  (((s.wordsOf t).drop (t.pc.toNat + 1)).take c).any uncoverable

/-- The number of words a prefix covers (R97); nothing for another word. -/
def coversOf (i : Instr) : Option Nat :=
  match i with
  | .guard _ c => some (c.toNat + 1)
  | .guardn _ c => some (c.toNat + 1)
  | .sguard _ c => some (c.toNat + 1)
  | _ => none

/-- Check 11 of R95. -/
def State.runCause (s : State) (t : Thread) (i : Instr) : Bool :=
  match coversOf i with
  | none => false
  | some c => s.breaksRunLimit t c

/-- The cause of the first failing check of R95 from check 5 on, or of a forbidden girt write (DEDUCED 51), which
comes before the word's own checks (DESIGN CHOICE 91). -/
def State.issueCause (s : State) (t : Thread) (i : Instr) : Option (Nat × DWord) :=
  match s.wordCause t (encode i) with
  | some c => some (c, 0)
  | none =>
    if !((operandsOf i).all fun o => o.nameOk s t) then some (0x008, 0)
    else if !((operandsOf i).all fun o => o.blockOk s t) then some (0x009, 0)
    else if s.runCause t i then some (0x00A, 0)
    else
      match (operandsOf i).find? fun o => (o.girtCause s t).isSome with
      | none => none
      | some o => some ((o.girtCause s t).getD 0, BitVec.ofNat 64 o.girtName)

/-- An operand is still due. -/
def State.operandsWait (s : State) (t : Thread) (i : Instr) : Bool :=
  (operandsOf i).any fun o => o.waits s t

/-- The single name that a word reads. -/
def Operand.read? (o : Operand) : Option Name :=
  match o with
  | .src n => some n
  | .both n => some n
  | _ => none

/-- What the writers of the girt values a word reads had done (R190). -/
def State.girtClock (s : State) (t : Thread) (i : Instr) : Clock :=
  (operandsOf i).foldl (fun c o =>
    match o.read? with
    | none => c
    | some n =>
      match s.place t n with
      | .girt f k g a => Clock.join c (((f.girtSource k g a t.lane).map (·.clk)).getD [])
      | _ => c) []

/-- A thread stands at its next word, which has not issued yet. -/
def Wait.atWord (w : Wait) : Bool :=
  match w with
  | .none => true
  | .covered _ _ _ => true
  | _ => false

/-- The word issues: its slot is charged once (R476), the thread's later path T accesses follow what the writers of its
girt operands had done (R190), and it holds the word until it completes. A prefix waits for its first word to issue with
it (R97). -/
def State.begin (s : State) (t : Thread) (i : Instr) : State :=
  if t.wait.atWord then
    let isWord := (coversOf i).isNone
    let s := if isWord then s.chargeIssue t.member 1 else s
    let c := s.girtClock t i
    s.modThread t.uid fun x => { x.follow c with wait := if isWord then .word else x.wait, issuedAt := s.clock }
  else s

/-- Issues a word for a thread: the checks, the wait for its operands and for what else it needs before
it can issue, then its effect. -/
def State.issue (s : State) (t : Thread) (i : Instr) (ready : State → Thread → Bool)
    (body : State → Thread → State) : State :=
  match s.issueCause t i with
  | some (c, a) => s.trap t.uid c a
  | none =>
    if s.operandsWait t i then s
    else if ready s t then body (s.begin t i) t
    else s

/-- The one shape of a word's meaning: the issuing thread issues it. -/
def issueWord (i : Instr) (s : State) (body : State → Thread → State) :
    Host.Outcome State Fault Refusal :=
  match s.curThread? with
  | none => .fault .noThread
  | some t => .next (s.issue t i (fun _ _ => true) body)

/-- The same for a word that does not issue until the thread is ready in a further respect. -/
def issueWhen (i : Instr) (s : State) (ready : State → Thread → Bool) (body : State → Thread → State) :
    Host.Outcome State Fault Refusal :=
  match s.curThread? with
  | none => .fault .noThread
  | some t => .next (s.issue t i ready body)

/-! ## Joint issues (R269, R276) -/

/-- The threads of a crew that hold a join label (R129). -/
def State.labelThreads (s : State) (crew : Nat) (label : Word) : List Thread :=
  s.threads.filter fun t => t.crew == crew && t.join == some label

/-- The threads held at a label are released and their join label is cleared (R129). -/
def State.releaseLabel (s : State) (crew : Nat) (label : Word) : State :=
  let stands (t : Thread) : Bool := t.crew == crew && t.join == some label && t.pc == label
  let free (t : Thread) : Thread :=
    { t with join := none, wait := match t.wait with | .held _ => .none | w => w }
  { s with threads := updateIf s.threads stands free }

/-- Every thread that holds the label of a thread's PC has come to it (R129). -/
def State.labelMet (s : State) (t : Thread) : Bool := (s.labelThreads t.crew t.pc).all fun x => x.pc == t.pc

/-- A thread's wait leaves it at a word that has not issued, at its join label or at none (R129). -/
def Wait.beforeWord (w : Wait) : Bool :=
  match w with
  | .held _ => true
  | w => w.atWord

/-- A thread has a cause to take before the word at which it stands (R419). -/
def Thread.takesFirst (t : Thread) : Bool := !t.busy && !t.pendq.isEmpty

/-- A thread stands at its word and would issue it: it waits for nothing else, and has no cause to take first
unless the word has issued (R97, R419). -/
def Thread.standsAt (t : Thread) (crew : Nat) (pc : Word) : Bool :=
  t.crew == crew && t.pc == pc && (t.wait == .word || (t.wait.beforeWord && !t.takesFirst))

/-- A thread is at a word that it cannot issue yet: its join label there is not met, an operand of a word before which it
takes a cause is due, or an `.acq` atomic of its is still under way (R129, R269, R380, R419). -/
def State.comesTo (s : State) (t : Thread) (i : Instr) (crew : Nat) (pc : Word) : Bool :=
  t.crew == crew && t.pc == pc && match t.wait with
    | .reply _ => true
    | .covered _ _ _ => t.takesFirst && s.operandsWait t i
    | w => w.beforeWord && ((t.join == some pc && !s.labelMet t) || (t.takesFirst && s.operandsWait t i))

/-- The lane set of a joint issue: the threads of the crew at the word that pass its checks, in lane
order (R269) (DESIGN CHOICE 28). -/
def State.laneSet (s : State) (t : Thread) (i : Instr) : List Thread :=
  sortBy (·.lane) ((s.threads.filter fun x => x.standsAt t.crew t.pc).filter fun x =>
    (s.issueCause x i).isNone)

/-- The word issues for every thread of a set. -/
def State.beginAll (s : State) (i : Instr) (ts : List Thread) : State :=
  match ts with
  | [] => s
  | t :: rest => State.beginAll (s.begin t i) i rest

/-- Every thread of the crew at the word is ready: none of them is held there, and those of the lane set have
their operands (R269). -/
def State.jointReady (s : State) (t : Thread) (i : Instr) : Bool :=
  !(s.threads.any fun x => s.comesTo x i t.crew t.pc) && !((s.laneSet t i).any fun x => s.operandsWait x i)

/-- Issues a word jointly: when every thread of the crew at the word is ready, the word takes effect for
all of them at once, and those that a join label would have held there are released (R129, R269, R276). -/
def issueJoint (i : Instr) (s : State) (ready : State → Thread → Bool)
    (body : State → Thread → List Thread → State) : Host.Outcome State Fault Refusal :=
  match s.curThread? with
  | none => .fault .noThread
  | some t =>
    match s.issueCause t i with
    | some (c, a) => .next (s.trap t.uid c a)
    | none =>
      let s' := s.releaseLabel t.crew t.pc
      if !s.jointReady t i || !ready s' t then .next s
      else
        let ts := s'.laneSet t i
        .next (body (s'.beginAll i ts) t ts)

end Sys2Proof.Machine
end

