-- ==== Sys2Proof/Machine/Flags.lean ====
section
/-! DEFINITION. The H9 has no condition flags (R152). What stands in their place: comparisons into
predicates (R162, R261), and the sticky saturation flag with the saturating narrowings that set it
(R174, R243, R246). -/
namespace Sys2Proof.Machine

open Sys2Proof

/-- The comparison of condition code c on two words (R162, R165). -/
def intCond (c : BitVec 3) (a b : Word) : Bool :=
  match c.toNat with
  | 0 => a == b
  | 1 => a != b
  | 2 => a.slt b
  | 3 => !a.slt b
  | 4 => a.ult b
  | 5 => !a.ult b
  | 6 => !b.slt a
  | _ => b.slt a

/-- An integer clamped to a range, and whether it was clamped (R243). -/
def clampInt (lo hi x : Int) : Int × Bool :=
  if x < lo then (lo, true) else if hi < x then (hi, true) else (x, false)

/-- Signed saturation to n bits (R243). -/
def satSigned (n : Nat) (x : Int) : Int × Bool := clampInt (-(2 ^ (n - 1) : Nat)) ((2 ^ (n - 1) : Nat) - 1) x
/-- Unsigned saturation to n bits (R243). -/
def satUnsigned (n : Nat) (x : Int) : Int × Bool := clampInt 0 ((2 ^ n : Nat) - 1) x

/-- Sets `%sat` when an operation clamped (R174). -/
def State.orSat (s : State) (u : Nat) (clamped : Bool) : State :=
  if clamped then s.modThread u fun t => { t with sat := true } else s

/-- A result with the saturation it caused. -/
def State.resultSat (s : State) (t : Thread) (d : Name) (v : Word) (clamped : Bool) : State :=
  (s.orSat t.uid clamped).result t d v

end Sys2Proof.Machine
end

