-- ==== Sys2Proof/Machine/Float.lean ====
section
/-! DEFINITION. Number formats and roundings (spec/11_number_formats.md R238 to R251): the exact value of
a pattern, exact arithmetic on values, and the one rounding of an exact value into a format. -/
namespace Sys2Proof.Machine

open Sys2Proof

/-- An exact value: a NaN, an infinity, or the signed magnitude num / den, where zero keeps its sign. -/
inductive FVal where
  | nan
  | inf (neg : Bool)
  | fin (neg : Bool) (num den : Nat)
  deriving DecidableEq, Repr

/-- What a format does with its all-ones exponent: IEEE-754, E4M3's single NaN, or nothing (R238). -/
inductive FSpecial where
  | ieee | oneNan | none
  deriving DecidableEq, Repr

/-- A floating format (R238). -/
structure Fmt where
  ebits : Nat
  fbits : Nat
  bias : Nat
  signed : Bool
  special : FSpecial
  deriving DecidableEq, Repr

/-- FP32 (R238). -/
def fp32 : Fmt := ⟨8, 23, 127, true, .ieee⟩
/-- FP16. -/
def fp16 : Fmt := ⟨5, 10, 15, true, .ieee⟩
/-- BF16. -/
def bf16 : Fmt := ⟨8, 7, 127, true, .ieee⟩
/-- E4M3. -/
def e4m3 : Fmt := ⟨4, 3, 7, true, .oneNan⟩
/-- E5M2. -/
def e5m2 : Fmt := ⟨5, 2, 15, true, .ieee⟩
/-- E2M1. -/
def e2m1 : Fmt := ⟨2, 1, 1, true, .none⟩
/-- E3M5, an unsigned scale. -/
def e3m5 : Fmt := ⟨3, 5, 3, false, .none⟩

/-- The sign bit's weight. -/
def Fmt.signWeight (f : Fmt) : Nat := 2 ^ (f.ebits + f.fbits)
/-- The magnitude pattern of the largest finite value. -/
def Fmt.maxCode (f : Fmt) : Nat :=
  match f.special with
  | .ieee => (2 ^ f.ebits - 1) * 2 ^ f.fbits - 1
  | .oneNan => 2 ^ (f.ebits + f.fbits) - 2
  | .none => 2 ^ (f.ebits + f.fbits) - 1
/-- The canonical NaN (R240); a format without NaN gives 0 (R245). -/
def Fmt.nanCode (f : Fmt) : Nat :=
  match f.special with
  | .ieee => (2 ^ f.ebits - 1) * 2 ^ f.fbits + 2 ^ (f.fbits - 1)
  | .oneNan => 2 ^ (f.ebits + f.fbits) - 1
  | .none => 0
/-- The pattern of a sign and magnitude. -/
def Fmt.withSign (f : Fmt) (neg : Bool) (code : Nat) : Nat :=
  if neg && f.signed then f.signWeight + code else code

/-- The value n × 2^k. -/
def scaled (neg : Bool) (n : Nat) (k : Int) : FVal :=
  if 0 ≤ k then .fin neg (n * 2 ^ k.toNat) 1 else .fin neg n (2 ^ (-k).toNat)

/-- The value of a pattern (R238). -/
def Fmt.value (f : Fmt) (pattern : Nat) : FVal :=
  let neg := f.signed && (pattern / f.signWeight) % 2 == 1
  let mag := pattern % f.signWeight
  let e := mag / 2 ^ f.fbits
  let m := mag % 2 ^ f.fbits
  let special : Option FVal := match f.special with
    | .ieee => if e = 2 ^ f.ebits - 1 then (if m = 0 then some (.inf neg) else some .nan) else none
    | .oneNan => if mag = 2 ^ (f.ebits + f.fbits) - 1 then some .nan else none
    | .none => none
  match special with
  | some v => v
  | none =>
    if e = 0 then scaled neg m (1 - (f.bias : Int) - f.fbits)
    else scaled neg (2 ^ f.fbits + m) ((e : Int) - f.bias - f.fbits)

/-- The four rounding modes (R245). -/
inductive Mode where
  | rn | rz | rd | ru
  deriving DecidableEq, Repr

/-- The 2-bit rounding code (R245). -/
def Mode.ofBits (m : BitVec 2) : Mode :=
  match m.toNat with
  | 0 => .rn
  | 1 => .rz
  | 2 => .rd
  | _ => .ru

/-- The floor of the base-2 logarithm of num / den, both positive. -/
def floorLog2 (num den : Nat) : Int :=
  let l : Int := (Nat.log2 num : Int) - Nat.log2 den
  let reached : Bool := if 0 ≤ l then decide (den * 2 ^ l.toNat ≤ num) else decide (den ≤ num * 2 ^ (-l).toNat)
  if reached then l else l - 1

/-- num / den × 2^k as a fraction. -/
def fracScale (num den : Nat) (k : Int) : Nat × Nat :=
  if 0 ≤ k then (num * 2 ^ k.toNat, den) else (num, den * 2 ^ (-k).toNat)

/-- The integer that a / b rounds to, a magnitude of the given sign. -/
def roundQuot (m : Mode) (neg : Bool) (a b : Nat) : Nat :=
  let q := a / b
  let r := a % b
  let up : Bool :=
    match m with
    | .rn => decide (b < 2 * r) || (decide (2 * r = b) && q % 2 == 1)
    | .rz => false
    | .rd => neg && r != 0
    | .ru => !neg && r != 0
  if up then q + 1 else q

/-- Step 1 of R245: the magnitude pattern of num / den rounded to the format's precision, its exponent
unbounded above. -/
def Fmt.roundCode (f : Fmt) (m : Mode) (neg : Bool) (num den : Nat) : Nat :=
  if num = 0 then 0
  else
    let low : Int := 1 - (f.bias : Int)
    let e := let l := floorLog2 num den; if l < low then low else l
    let (a, b) := fracScale num den (f.fbits - e)
    roundQuot m neg a b + (e - low).toNat * 2 ^ f.fbits

/-- The overflow outcome of R245: the pattern, and whether it is finite. -/
def Fmt.overflow (f : Fmt) (m : Mode) (saturating neg : Bool) : Nat × Bool :=
  let largest := (f.withSign neg f.maxCode, true)
  let beyond := match f.special with
    | .ieee => (f.withSign neg (f.maxCode + 1), false)
    | .oneNan => (f.nanCode, false)
    | .none => largest
  if saturating then largest
  else match m with
    | .rn => beyond
    | .rz => largest
    | .rd => if neg then beyond else largest
    | .ru => if neg then largest else beyond

/-- `round(mode, fmt, x)` (R245), with the flag that a conversion sets: a NaN or infinite source, or an
overflow, that a finite value replaces. -/
def Fmt.round (f : Fmt) (m : Mode) (saturating : Bool) (x : FVal) : Nat × Bool :=
  match x with
  | .nan => (f.nanCode, f.special = .none)
  | .inf neg =>
    if !f.signed then (if neg then (0, true) else (f.maxCode, true))
    else match f.special with
      | .ieee => if saturating then (f.withSign neg f.maxCode, true) else (f.withSign neg (f.maxCode + 1), false)
      | .oneNan => if saturating then (f.withSign neg f.maxCode, true) else (f.nanCode, false)
      | .none => (f.withSign neg f.maxCode, true)
  | .fin neg num den =>
    if neg && !f.signed then
      -- R245 gives 0x00; the flag follows the magnitude (R265)
      (0, decide (f.maxCode < f.roundCode .ru false num den))
    else
      let code := f.roundCode m neg num den
      if f.maxCode < code then f.overflow m saturating neg else (f.withSign neg code, false)

/-! ## Exact arithmetic (R239, R240, R256) -/

/-- A negated value. -/
def FVal.neg : FVal → FVal
  | .nan => .nan
  | .inf n => .inf (!n)
  | .fin n a b => .fin (!n) a b

/-- The exact product; an infinity times zero is NaN. -/
def FVal.mul (x y : FVal) : FVal :=
  match x, y with
  | .nan, _ => .nan
  | _, .nan => .nan
  | .inf m, .inf n => .inf (m != n)
  | .inf m, .fin n a _ => if a = 0 then .nan else .inf (m != n)
  | .fin m a _, .inf n => if a = 0 then .nan else .inf (m != n)
  | .fin m a b, .fin n c d => .fin (m != n) (a * c) (b * d)

/-- The exact sum; a zero sum of unlike signs is negative only when rounding toward minus infinity. -/
def FVal.add (mode : Mode) (x y : FVal) : FVal :=
  match x, y with
  | .nan, _ => .nan
  | _, .nan => .nan
  | .inf m, .inf n => if m = n then .inf m else .nan
  | .inf m, .fin _ _ _ => .inf m
  | .fin _ _ _, .inf n => .inf n
  | .fin m a b, .fin n c d =>
    let p := a * d
    let q := c * b
    if m = n then .fin m (p + q) (b * d)
    else if p = q then .fin (mode = .rd) 0 1
    else if q < p then .fin m (p - q) (b * d) else .fin n (q - p) (b * d)

/-- The exact quotient; 0/0 and inf/inf are NaN. -/
def FVal.div (x y : FVal) : FVal :=
  match x, y with
  | .nan, _ => .nan
  | _, .nan => .nan
  | .inf _, .inf _ => .nan
  | .inf m, .fin n _ _ => .inf (m != n)
  | .fin m _ _, .inf n => .fin (m != n) 0 1
  | .fin m a b, .fin n c d =>
    if c = 0 then (if a = 0 then .nan else .inf (m != n)) else .fin (m != n) (a * d) (b * c)

/-- A value is a NaN. -/
def FVal.isNan : FVal → Bool
  | .nan => true
  | _ => false

/-- The order of values other than NaN; the zeros are equal. -/
def FVal.lt (x y : FVal) : Bool :=
  match x, y with
  | .nan, _ => false
  | _, .nan => false
  | .inf m, .inf n => m && !n
  | .inf m, .fin _ _ _ => m
  | .fin _ _ _, .inf n => !n
  | .fin m a b, .fin n c d =>
    match m, n with
    | false, false => decide (a * d < c * b)
    | true, true => decide (c * b < a * d)
    | true, false => decide (a ≠ 0 ∨ c ≠ 0)
    | false, true => false

/-- The sign of a value. -/
def FVal.isNeg : FVal → Bool
  | .nan => false
  | .inf n => n
  | .fin n _ _ => n

/-- The order under which minus zero is below plus zero (R241). -/
def FVal.below (x y : FVal) : Bool := x.lt y || (!y.lt x && x.isNeg && !y.isNeg)

/-- The exact value of an integer. -/
def FVal.ofInt (x : Int) : FVal := .fin (decide (x < 0)) x.natAbs 1

/-- The integer a value rounds to (R246): nothing for NaN; an infinity is its sign. -/
def FVal.toInt (m : Mode) (x : FVal) : Option (Int ⊕ Bool) :=
  match x with
  | .nan => none
  | .inf n => some (.inr n)
  | .fin neg a b =>
    let q : Int := roundQuot m neg a b
    some (.inl (if neg then -q else q))

/-- Conversion of a value to an integer of a range (R246), with the saturation flag. -/
def FVal.toRange (m : Mode) (lo hi : Int) (x : FVal) : Int × Bool :=
  match x.toInt m with
  | none => (0, true)
  | some (.inr neg) => (if neg then lo else hi, true)
  | some (.inl v) => clampInt lo hi v

/-! ## Operations on patterns -/

/-- The value of an FP32 word. -/
def f32 (w : Word) : FVal := fp32.value w.toNat
/-- An exact value rounded to FP32. -/
def toF32 (m : Mode) (x : FVal) : Word := BitVec.ofNat 32 (fp32.round m false x).1
/-- FP32 addition (R256). -/
def addF32 (m : Mode) (a b : Word) : Word := toF32 m ((f32 a).add m (f32 b))

/-- The smaller pattern under R241; a NaN gives the canonical NaN. -/
def Fmt.minCode (f : Fmt) (a b : Nat) : Nat :=
  if (f.value a).isNan || (f.value b).isNan then f.nanCode
  else if (f.value a).below (f.value b) then a else b
/-- The larger pattern under R241. -/
def Fmt.largerCode (f : Fmt) (a b : Nat) : Nat :=
  if (f.value a).isNan || (f.value b).isNan then f.nanCode
  else if (f.value a).below (f.value b) then b else a

/-- FP32 maximum (R241). -/
def maxF32 (a b : Word) : Word := BitVec.ofNat 32 (fp32.largerCode a.toNat b.toNat)
/-- FP32 minimum (R241). -/
def minF32 (a b : Word) : Word := BitVec.ofNat 32 (fp32.minCode a.toNat b.toNat)

/-! ## Reciprocals and functions (R259, R260) -/

/-- The bits of an integer square root from bit n - 1 down, above an accumulated root. -/
def sqrtBits (x acc n : Nat) : Nat :=
  match n with
  | 0 => acc
  | n + 1 => sqrtBits x (if (acc + 2 ^ n) * (acc + 2 ^ n) ≤ x then acc + 2 ^ n else acc) n

/-- The integer square root. -/
def isqrt (x : Nat) : Nat := sqrtBits x 0 (Nat.log2 x / 2 + 1)

/-- FRCP (R259). -/
def rcpF32 (x : Word) : Word := toF32 .rn (FVal.div (.fin false 1 1) (f32 x))

/-- 1 / sqrt(num / den), correctly rounded to the nearest FP32 value (R259). -/
def rsqrtCode (num den : Nat) : Nat :=
  let e := (floorLog2 den num).fdiv 2
  let (a, b) := fracScale den num (2 * (23 - e))
  let k := isqrt (a / b)
  let mid := (2 * k + 1) * (2 * k + 1) * b
  let up : Bool := decide (mid < 4 * a) || (decide (mid = 4 * a) && k % 2 == 1)
  (if up then k + 1 else k) + (e + 126).toNat * 2 ^ 23

/-- FRSQ (R259). -/
def rsqF32 (x : Word) : Word :=
  match f32 x with
  | .nan => 0x7FC00000
  | .inf true => 0x7FC00000
  | .inf false => 0
  | .fin neg a b =>
    if a = 0 then (if neg then 0xFF800000 else 0x7F800000)
    else if neg then 0x7FC00000
    else BitVec.ofNat 32 (rsqrtCode a b)

/-- Binary places carried in the logarithms and powers below. -/
def places : Nat := 128

/-- 2^(frac / 2^n) in fixed point, by square roots of 2 from the highest bit down. -/
def powBits (frac n : Nat) (root acc : Nat) : Nat :=
  match n with
  | 0 => acc
  | n + 1 =>
    let r := isqrt (root * 2 ^ places)
    powBits frac n r (if (frac / 2 ^ n) % 2 = 1 then acc * r / 2 ^ places else acc)

/-- 2^x for x = ± num / den, to 63 binary places of relative precision: the fraction of x is cut to 64 places, and is
at least 2^-64 where x is no integer, so the power lies off the one of its integer. -/
def pow2 (neg : Bool) (num den : Nat) : FVal :=
  let whole : Nat := num / den
  let frac : Nat := if num % den != 0 then Nat.max 1 ((num % den) * 2 ^ 64 / den) else 0
  let k : Int := if !neg then whole else if frac = 0 then -(whole : Int) else -(whole : Int) - 1
  let f : Nat := if !neg || frac = 0 then frac else 2 ^ 64 - frac
  let p := powBits f 64 (2 * 2 ^ places) (2 ^ places)
  scaled false p (k - places)

/-- The bits of log2(m) for m in [1, 2), in fixed point, by repeated squaring. -/
def logBits (m n acc : Nat) : Nat :=
  match n with
  | 0 => acc
  | n + 1 =>
    let q := m * m / 2 ^ places
    if 2 * 2 ^ places ≤ q then logBits (q / 2) n (2 * acc + 1) else logBits q n (2 * acc)

/-- log2(num / den), to 64 binary places. -/
def logVal (num den : Nat) : FVal :=
  let e := floorLog2 num den
  let (a, b) := fracScale num den (places - e)
  let f := logBits (a / b) 64 0
  let v : Int := e * (2 ^ 64 : Nat) + f
  .fin (decide (v < 0)) v.natAbs (2 ^ 64)

/-- The distance between two finite values is at most a third one. -/
def within (x y bound : FVal) : Bool :=
  match x.add .rn y.neg with
  | .fin _ a b => !bound.lt (.fin false a b)
  | _ => false

/-- k units in the last place of a finite value in FP32. -/
def ulps (k : Nat) (x : FVal) : FVal :=
  match x with
  | .fin _ a b =>
    let e : Int := if a = 0 then -126 else let l := floorLog2 a b; if l < -126 then -126 else l
    scaled false k (e - 23)
  | _ => .nan

/-- A value within the bounds of R260 of the exact one: the free value where it lies within all of them, else the
nearest (DESIGN CHOICE 13). -/
def boundedPick (free : Word) (exact : FVal) (bounds : List FVal) : Word :=
  if bounds.all (within (f32 free) exact) then free else toF32 .rn exact

/-- FEXP2 (R260) (DESIGN CHOICE 13). -/
def exp2F32 (x : Word) : Word :=
  match f32 x with
  | .nan => 0x7FC00000
  | .inf true => 0
  | .inf false => 0x7F800000
  | .fin neg a b =>
    if !neg ∧ 128 * b ≤ a then 0x7F800000
    else if neg ∧ 150 * b < a then 0
    else
      let exact := pow2 neg a b
      if a % b = 0 ∧ ¬(neg ∧ 149 * b < a) then toF32 .rn exact
      else boundedPick (Config.exp2Value x) exact [ulps 2 exact]

/-- A number is a power of two. -/
def isPow2 (n : Nat) : Bool := n != 0 && 2 ^ Nat.log2 n == n

/-- FLOG2 (R260): within 2 units in the last place, and for x in [0.5, 2] within 2^-22 as well (DESIGN CHOICE 13). -/
def log2F32 (x : Word) : Word :=
  match f32 x with
  | .nan => 0x7FC00000
  | .inf true => 0x7FC00000
  | .inf false => 0x7F800000
  | .fin neg a b =>
    if a = 0 then 0xFF800000
    else if neg then 0x7FC00000
    else
      let exact := logVal a b
      if isPow2 a && isPow2 b then toF32 .rn exact
      else
        let near : Bool := decide (b ≤ 2 * a) && decide (a ≤ 2 * b)
        boundedPick (Config.log2Value x) exact
          (if near then [ulps 2 exact, scaled false 1 (-22)] else [ulps 2 exact])

end Sys2Proof.Machine
end

