-- ==== Sys2Proof/Machine/Access.lean ====
section
/-! DEFINITION. Memory accesses: generic addresses and the checks of R202, translation through the page
tables (R207 to R214), mapped lines (R216, R217), the happens-before order and its races (R353 to R372),
and the path T accesses of threads from their checks to their flight. -/
namespace Sys2Proof.Machine

open Sys2Proof

/-! ## Where an address points (R202 to R204) -/

/-- A member that holds its scratchpad as a cluster peer: until its retirement releases it (R473), or,
when cancelled while Suspended, until the cancel (R433, R434). -/
def Member.isPeer (m : Member) : Bool :=
  m.onCore && match m.st with
  | .running => true
  | .suspended => true
  | .done => !m.quiesced
  | .cancelled => !m.quiesced && m.divert.isNone
  | _ => false

/-- A member was cancelled while it was away: its regions are Released and no access reaches them (R432,
R434). -/
def Member.isReleased (m : Member) : Bool := m.st == .cancelled && m.divert.isSome

/-- Cluster peer c of a member (R204, R434). -/
def State.peer (s : State) (m : Member) (c : Nat) : Option Member :=
  if !isM m.core then none
  else if c = m.core % 4 ∧ ¬m.isReleased then some m
  else minBy (s.members.filter fun x =>
    x.isPeer && x.core == m.core / 4 * 4 + c && x.job == m.job && x.part == m.part) (·.id)

/-- A member's scratch bytes (R202). -/
def Member.scratchBytes (m : Member) : Nat := m.desc.scratch * 65536

/-- Where a generic address points. -/
inductive Target where
  | shared (va : Nat)
  | scratch (owner : Member) (off : Nat)
  deriving DecidableEq, Repr

/-- The first byte beyond the shared aperture (R202). -/
def sharedEnd : Nat := 0x0008000000000000

/-- The checks of R202 up to translation and mapping: the target, or the cause. -/
def State.target (s : State) (m : Member) (addr : DWord) (size : Nat) : Except Nat Target :=
  let a := addr.toNat
  let lo := (addr - localBase).toNat
  let co := (addr - clusterBase).toNat
  if a < sharedEnd then
    if a % size ≠ 0 then .error 0x081 else .ok (.shared a)
  else if lo < 2 ^ 24 then
    if a % size ≠ 0 then .error 0x081
    else if m.isReleased then .error 0x083
    else if m.scratchBytes < lo + size then .error 0x082
    else .ok (.scratch m lo)
  else if co < 2 ^ 26 then
    if a % size ≠ 0 then .error 0x081
    else match s.peer m (co / 2 ^ 24) with
      | none => .error 0x083
      | some p =>
        if p.scratchBytes < co % 2 ^ 24 + size then .error 0x084
        else .ok (.scratch p (co % 2 ^ 24))
  else .error 0x080

/-- The mapped region that holds a local offset (R216). -/
def Member.regionAt (m : Member) (off : Nat) : Option Region :=
  m.regions.find? fun r => decide (r.off ≤ off) && decide (off < r.off + r.units * 65536)

/-- The diversion state of a local offset of a suspended member (R432). -/
def Member.divertAt (m : Member) (off : Nat) : Option Divert :=
  match m.divert with
  | none => none
  | some l => ((l.filter fun d => decide (d.1 ≤ off)).getLast?).map (·.2)

/-- The line of a region that holds a local offset (R217). -/
def Region.lineOf (r : Region) (off : Nat) : Nat := (off - r.off) / 4096

/-- The first byte from an address upwards that lies in no range, following at most `fuel` ranges. -/
def coverEnd (ranges : List (DWord × DWord)) (fuel a : Nat) : Nat :=
  match fuel with
  | 0 => a
  | fuel + 1 =>
    match ranges.find? fun r => decide (r.1.toNat ≤ a) && decide (a < r.1.toNat + r.2.toNat) with
    | none => a
    | some r => coverEnd ranges fuel (r.1.toNat + r.2.toNat)

/-- Every byte of an extent lies in a partition's memory ranges. -/
def inRanges (ranges : List (DWord × DWord)) (base len : Nat) : Bool :=
  decide (base + len ≤ coverEnd ranges ranges.length base)

/-- The shared ranges of a partition. -/
def State.rangesOf (s : State) (part : Nat) : List (DWord × DWord) :=
  ((s.part? part).map (·.cfg.ranges)).getD []

/-! ## Translation (R207 to R214) -/

/-- A table entry in device memory. -/
def State.entryAt (s : State) (a : Nat) : DWord := leDWord (s.mem.bytes a 8)

/-- The walker accepts an entry at a level: valid, no reserved bit, leaf and size agree with the level
(R208). -/
def entryOk (e : DWord) (level : Nat) : Bool :=
  let leaf := e.getLsbD 1
  let size := (e.extractLsb' 8 2).toNat
  e.getLsbD 0 && e.extractLsb' 46 14 == 0 && e.extractLsb' 10 6 == 0 && e.extractLsb' 4 4 == 0 &&
    match level with
    | 1 => !leaf && size == 0
    | 2 => if leaf then size == 2 else size == 0
    | _ => leaf && decide (size ≤ 1)

/-- The physical base that an entry's frame field names (R208). -/
def entryFrame (e : DWord) : Nat := (e.extractLsb' 16 30).toNat * 65536

/-- A translation: the leaf's address and contents, and the physical address. -/
structure Walk where
  leafAt : Nat
  leaf : DWord
  pa : Nat
  deriving DecidableEq, Repr

/-- The three-level walk from a partition's root (R207, R209); nothing is a page fault. -/
def State.walk (s : State) (root va : Nat) : Option Walk :=
  let e1 := s.entryAt (root + 8 * (va / 2 ^ 42 % 8192))
  if !entryOk e1 1 then none
  else
    let a2 := entryFrame e1 + 8 * (va / 2 ^ 29 % 8192)
    let e2 := s.entryAt a2
    if !entryOk e2 2 then none
    else if e2.getLsbD 1 then some ⟨a2, e2, entryFrame e2 / 2 ^ 29 * 2 ^ 29 + va % 2 ^ 29⟩
    else
      let a3 := entryFrame e2 + 8 * (va / 2 ^ 16 % 8192)
      let e3 := s.entryAt a3
      if !entryOk e3 3 then none
      else some ⟨a3, e3, entryFrame e3 + va % 65536⟩

/-- The page-table root of a partition. -/
def State.rootOf (s : State) (part : Nat) : Nat := ((s.part? part).map (·.root)).getD 0

/-- A heat raised by one, stopping at 3 (R210). -/
def heatUp (e : DWord) (write : Bool) : DWord :=
  let shift := if write then 62 else 60
  if (e >>> shift) &&& 3 = 3 then e else e + (1#64 <<< shift)

/-- The walker's update of a leaf (R210) (DESIGN CHOICE 55). -/
def State.raiseHeat (s : State) (leafAt : Nat) (write : Bool) : State :=
  { s with mem := s.mem.put leafAt (leBytes 8 (heatUp (s.entryAt leafAt) write).toNat) }

/-- The stack that holds a physical address, and its die (R206; PRESUMED 9). -/
def stackOf (pa : Nat) : Nat := pa / 65536 % Config.stackCount
/-- The home die of a physical address (PRESUMED 9). -/
def homeDie (pa : Nat) : Nat := stackOf pa / 4

/-! ## Bytes at their homes -/

/-- The bytes at a location. -/
def State.bytesAt (s : State) (l : Loc) (n : Nat) : List Byte :=
  match l.space with
  | 0 => s.mem.bytes l.off n
  | m + 1 => match s.member? m with
    | none => List.replicate n 0
    | some x => x.scratch.bytes l.off n

/-- The sectors of a line that bytes from an offset touch (R217). -/
def sectorMask (off n : Nat) : BitVec 64 :=
  (List.range ((off % 4096 + n + 63) / 64 - off % 4096 / 64)).foldl
    (fun (acc : BitVec 64) i => acc ||| (1#64 <<< (off % 4096 / 64 + i))) 0

/-- A line after a write of some of its sectors: a Clean or Dirty one has them marked; an Invalid one
becomes Dirty by a write of all of it, and only by that (R217). -/
def Line.written (l : Option Line) (sectors : BitVec 64) : Option Line :=
  match l with
  | some (.dirty d) => some (.dirty (d ||| sectors))
  | some .clean => some (.dirty sectors)
  | some (.filling f) => some (.filling f)
  | none => if sectors = BitVec.allOnes 64 then some (.dirty sectors) else none

/-- A write marks its sectors in the line of a mapped region (R217). -/
def Member.markDirty (m : Member) (off n : Nat) : Member :=
  match m.regionAt off with
  | none => m
  | some r =>
    match Line.written (assoc r.lines (r.lineOf off)) (sectorMask off n) with
    | none => m
    | some l => { m with regions := updateIf m.regions (fun x => x.off == r.off) fun x =>
        { x with lines := assocSet x.lines (r.lineOf off) l } }

/-- Two byte extents overlap. -/
def overlaps (a n b m : Nat) : Bool := decide (a < b + m) && decide (b < a + n)

/-- A write hits every monitor on a word it touches, closes MWAITM's pause window, and wakes the core (R83, R386,
R387). -/
def State.hitMonitors (s : State) (l : Loc) (n : Nat) : State :=
  let hit (t : Thread) : Bool := match t.monitor with
    | none => false
    | some m => m.loc.space == l.space && overlaps m.loc.off 4 l.off n
  let s' : State := { s with threads := updateIf s.threads hit fun t =>
      { t with
        monitor := t.monitor.map fun m => { m with hit := true }
        pause := if t.hitCloses then none else t.pause } }
  (s.threads.filter hit).foldl (fun s t => s.wakeCore t.core) s'

/-- Writes bytes at their home; monitors are hit and mapped sectors marked. -/
def State.putAt (s : State) (l : Loc) (bs : List Byte) : State :=
  let s := match l.space with
    | 0 => { s with mem := s.mem.put l.off bs }
    | m + 1 => s.modMember m fun x =>
        { x with scratch := x.scratch.put l.off bs }.markDirty l.off bs.length
  s.hitMonitors l bs.length

/-! ## Happens-before and races (R355, R356, R372) -/

/-- The i-th byte of a location. -/
def Loc.plus (l : Loc) (i : Nat) : Loc := { l with off := l.off + i }

/-- The history of a location. -/
def State.shadowOf (s : State) (l : Loc) : Shadow :=
  (s.shadow.find? fun x => x.loc == l).getD ⟨l, [], [], false, []⟩

/-- An earlier access happens before an access with this clock, or both are atomics of one size
(R362). -/
def orderedBefore (clk : Clock) (z : Nat) (a : Nat × Nat × Nat) : Bool :=
  decide (a.2.1 ≤ Clock.get clk a.1) || (z != 0 && a.2.2 == z)

/-- An earlier access that an access of an agent follows neither by the order nor as its own agent's. -/
def unordered (agent : Nat) (clk : Clock) (a : Nat × Nat × Nat) : Bool :=
  a.1 != agent && !decide (a.2.1 ≤ Clock.get clk a.1)

/-- An earlier access that conflicts with an access of an agent and races with it (R372): neither happens before
it nor is an atomic with it. -/
def races (agent : Nat) (clk : Clock) (z : Nat) (a : Nat × Nat × Nat) : Bool :=
  a.1 != agent && !orderedBefore clk z a

/-- An earlier access with which whatever races also races with this later one: it happens before this one, and
this one is an atomic only if it is one of the same size (R362). -/
def covered (agent : Nat) (clk : Clock) (z : Nat) (a : Nat × Nat × Nat) : Bool :=
  !unordered agent clk a && (z == 0 || a.2.2 == z)

/-- An access that makes one read of a byte: the new history, and whether the read races, with a write that is to come
among them; a race leaves the byte's contents unbounded. -/
def Shadow.read (h : Shadow) (agent : Nat) (clk : Clock) (z : Nat) : Shadow × Bool :=
  let racing := h.raced || h.writes.any (races agent clk z)
  let me := (agent, Clock.get clk agent, z)
  ({ h with reads := h.reads.filter (fun a => !covered agent clk z a) ++ [me], raced := racing },
    racing || h.foretold.contains agent)

/-- An access that writes a byte: a write that races leaves the byte's contents unbounded, and a write that
races with nothing before it bounds them again. What it does not cover stays in the history; a race that was to come has
come. -/
def Shadow.wrote (h : Shadow) (agent : Nat) (clk : Clock) (z : Nat) : Shadow where
  loc := h.loc
  writes := (agent, Clock.get clk agent, z) :: h.writes.filter fun a => !covered agent clk z a
  reads := h.reads.filter fun a => !covered agent clk z a
  raced := (h.writes ++ h.reads).any (races agent clk z)
  foretold := []

/-- The slot of a ring that holds a local offset (R309). -/
def Ring.slotOf (r : Ring) (off : Nat) : Option Nat :=
  if r.base ≤ off ∧ off < r.base + r.slots.length * r.bytes then some ((off - r.base) / r.bytes) else none

/-- An agent acts for the thread, copy or subscription that holds a ring slot: it is that one's own, or that of a command
which that thread issued (R311, R353) (DEDUCED 96). -/
def State.actsFor (s : State) (agent holder : Nat) : Bool :=
  agent / 4 == holder ||
  (s.copies.any fun c => c.uid == holder && agent % 4 == 2 && decide (c.id ≤ agent / 4) && decide (agent / 4 < c.id + 5)) ||
  s.cores.any fun c => (c.mq.any fun q => agentC q.id == agent && q.uids.contains holder) ||
    c.sq.any fun q => agentC q.id == agent && q.uids.contains holder

/-- What was done with a ring slot comes before the writes of its producer there, on any path, and before what the thread
or subscription that has taken it does there itself; a command of that thread follows the take where it was issued after
it, and knows so (R311). -/
def State.slotOrder (s : State) (agent : Nat) (write : Bool) (l : Loc) : Clock :=
  match (if l.space = 0 then none else s.member? (l.space - 1)) with
  | none => []
  | some m =>
    match m.rings.findSome? fun r => (r.slotOf l.off).map fun i => (r, i) with
    | none => []
    | some (r, i) =>
      let allowed (holder : Nat) : Bool := match (r.slots.getD i (.free, [])).1 with
        | .claimed => write && s.actsFor agent holder
        | .held => agent / 4 == holder
        | _ => false
      if (assoc r.holders i).any allowed then (assoc r.past i).getD [] else []

/-- What happens before an access of an agent to a byte (R311, R355). -/
def State.orderAt (s : State) (agent : Nat) (clk : Clock) (write : Bool) (l : Loc) : Clock :=
  Clock.join clk (s.slotOrder agent write l)

/-- Reads bytes for an access of an agent: a byte whose read races is a free value (R372) (DESIGN CHOICE 11). -/
def State.readFor (s : State) (agent : Nat) (clk : Clock) (z : Nat) (l : Loc) (n : Nat) :
    State × List Byte :=
  match n with
  | 0 => (s, [])
  | n + 1 =>
    let (s, rest) := State.readFor s agent clk z l n
    let here := l.plus n
    let (h, racing) := (s.shadowOf here).read agent (s.orderAt agent clk (z == 4 || z == 8) here) z
    let b := if racing then Config.raced s.fresh else (s.bytesAt here 1).headD 0
    ({ s with
        shadow := upsert s.shadow (fun x => x.loc == here) h
        fresh := if racing then s.fresh + 1 else s.fresh }, rest ++ [b])

/-- Reads bytes as they stand at their home: a byte that a race or an uncorrectable error has left
unbounded is a free value (R214, R372) (DESIGN CHOICE 11). -/
def State.readSeen (s : State) (l : Loc) (n : Nat) : State × List Byte :=
  match n with
  | 0 => (s, [])
  | n + 1 =>
    let (s, rest) := State.readSeen s l n
    let here := l.plus n
    if (s.shadowOf here).raced || s.broken.contains here ||
        (here.space == 0 && s.poison.contains (here.off / 4096)) then
      ({ s with fresh := s.fresh + 1 }, rest ++ [Config.raced s.fresh])
    else (s, rest ++ s.bytesAt here 1)

/-- Notes the write of bytes by an access of an agent in their histories. -/
def State.noteWrite (s : State) (agent : Nat) (clk : Clock) (z : Nat) (l : Loc) (n : Nat) : State :=
  match n with
  | 0 => s
  | n + 1 =>
    let here := l.plus n
    let s := { s with
      shadow := upsert s.shadow (fun x => x.loc == here) ((s.shadowOf here).wrote agent (s.orderAt agent clk true here) z) }
    State.noteWrite s agent clk z l n

/-- A plain store in the chain of a release ends it (R360). -/
def State.endReleases (s : State) (l : Loc) (n : Nat) : State :=
  { s with releases := s.releases.filter fun r => !(r.loc.space == l.space && overlaps r.loc.off r.size l.off n) }

/-- Writes bytes for a plain access of an agent. -/
def State.writeFor (s : State) (agent : Nat) (clk : Clock) (l : Loc) (bs : List Byte) : State :=
  ((s.noteWrite agent clk 0 l bs.length).endReleases l bs.length).putAt l bs

/-- A fill replaces bytes: what a race had left unbounded is bounded again when everything that was done there
happens before the fill; what was done there is remembered (R217, R372). -/
def State.refill (s : State) (clk : Clock) (l : Loc) (n : Nat) : State :=
  let within (h : Shadow) : Bool :=
    h.loc.space == l.space && decide (l.off ≤ h.loc.off) && decide (h.loc.off < l.off + n)
  { s with shadow := updateIf s.shadow within fun h =>
      { h with raced := h.raced && (h.writes ++ h.reads).any fun a => !orderedBefore clk 0 a } }

/-- The reads of an agent at a byte race from now on with a write that is to come there (R372) (DESIGN CHOICE 11). -/
def State.foretell (s : State) (l : Loc) (agent : Nat) : State :=
  { s with shadow := upsert s.shadow (fun x => x.loc == l) { s.shadowOf l with
    foretold := (s.shadowOf l).foretold ++ [agent] } }

/-- Forgets the histories of bytes whose accesses the hardware orders by itself: pages that Nymesque fills or
brings back, and what the sampler writes. -/
def State.forget (s : State) (l : Loc) (n : Nat) : State :=
  { s with shadow := s.shadow.filter fun x =>
      !(x.loc.space == l.space && decide (l.off ≤ x.loc.off) && decide (x.loc.off < l.off + n)) }

/-! ## The access sampler (R215) -/

/-- What the sampler records of an access. -/
structure Sample where
  core : Nat
  tid : Nat
  kind : Nat
  size : Nat
  path : Nat
  member : Nat
  deriving DecidableEq, Repr

/-- The 32 bytes of a record (R215): which caches held the access is free. -/
def Sample.bytes (r : Sample) (addr time : DWord) (caches : BitVec 2) (far : Bool) : List Byte :=
  leBytes 8 addr.toNat ++ leBytes 8 time.toNat ++ leBytes 2 r.core ++ leBytes 2 r.tid ++
    leBytes 1 (r.kind + 16 * Nat.log2 r.size) ++ leBytes 1 r.path ++ leBytes 1 (caches.toNat + if far then 4 else 0) ++
    leBytes 1 0 ++ leBytes 4 r.member ++ leBytes 4 0

/-- The sampler's agent; no thread and no engine command is its writes' issuer (R353, R372). -/
def samplerAgent : Nat := agentC 0

/-- The sampler writes bytes on path C: earlier accesses do not race with it, later ones follow it through
the count alone (R215, R353). -/
def State.sampled (s : State) (clk : Clock) (z pa : Nat) (bs : List Byte) : State :=
  ((s.forget ⟨0, pa⟩ bs.length).noteWrite samplerAgent clk z ⟨0, pa⟩ bs.length).putAt ⟨0, pa⟩ bs

/-- Adds one to a 64-bit count in device memory as a device-scope atomic; the produced count publishes the
records (R215). -/
def State.bump (s : State) (clk : Clock) (core pa : Nat) (pub : Bool) : State :=
  let s' := s.sampled clk 8 pa (leBytes 8 (leNat (s.mem.bytes pa 8) + 1))
  if pub then { s' with releases := s'.releases ++ [⟨⟨0, pa⟩, 8, clk, core, 3⟩] } else s'

/-- A die counts a translated access of a partition and records one in each 2^k (R215). Its own accesses to the ring
are not counted or checked, and a sample is lost uncounted where the header has no page (DESIGN CHOICE 107). -/
def State.sampleOn (s : State) (part die : Nat) (r : Sample) (addr : DWord) (pa : Nat) : State :=
  match s.part? part with
  | none => s
  | some p =>
    match p.cfg.sampler with
    | none => s
    | some c =>
      let n := (assoc p.samples die).getD 0 + 1
      let s := s.modPart part fun x => { x with samples := assocSet x.samples die n }
      if n % 2 ^ c.k ≠ 0 then s
      else match s.walk p.root c.base.toNat with
        | none => s
        | some head =>
          let clk : Clock := [(samplerAgent, s.nextId)]
          let s := { s with nextId := s.nextId + 1 }
          let count := leNat (s.mem.bytes head.pa 8)
          match s.walk p.root (c.base.toNat + 64 + 32 * (count % 2 ^ c.m)) with
          | none => s.bump clk r.core (head.pa + 8) false
          | some rec =>
            let bs := r.bytes addr s.clock (Config.cacheHits s.fresh) (homeDie pa != die)
            ({ s with fresh := s.fresh + 1 }.sampled clk 0 rec.pa bs).bump clk r.core head.pa true

/-- The die of the issuing core counts and records an access of that core. -/
def State.sample (s : State) (part : Nat) (r : Sample) (addr : DWord) (pa : Nat) : State :=
  s.sampleOn part (dieOf r.core) r addr pa

/-! ## The checks of one access -/

/-- One access to check: its address, size, whether it writes and whether it is an atomic. -/
structure Need where
  addr : DWord
  size : Nat
  write : Bool
  atom : Bool
  deriving DecidableEq, Repr

/-- How the checks of an access end: it passes, with the leaf of its translation; it is denied with a
cause and address; it needs a fill of an Invalid line; it waits for a fill or a restore; its walk meets
an invalid entry. -/
inductive Check where
  | pass (l : Loc) (leaf : Option Nat)
  | deny (cause : Nat) (addr : DWord)
  | fill (member line region : Nat)
  | hold
  | absent (page : Nat)
  deriving DecidableEq, Repr

/-- An access meets an uncorrectable error (R214). -/
def State.meetsError (s : State) (l : Loc) (n : Nat) : Bool :=
  s.broken.any fun b => b.space == l.space && decide (l.off ≤ b.off) && decide (b.off < l.off + n)

/-- A byte comes to hold an uncorrectable error (R214). -/
def State.breakByte (s : State) (l : Loc) : State :=
  { s with broken := if s.broken.contains l then s.broken else s.broken ++ [l] }

/-- The checks of a shared access (R208, R213, R214); a failure names the generic address used. A write that lacks
permission is told before poison or an error (DESIGN CHOICE 106). -/
def State.checkShared (s : State) (part : Nat) (n : Need) (va : Nat) : Check :=
  match s.walk (s.rootOf part) va with
  | none => .absent (va / 65536)
  | some w =>
    if n.write && !w.leaf.getLsbD 2 then .deny 0x086 n.addr
    else if s.poison.contains (w.pa / 4096) || s.meetsError ⟨0, w.pa⟩ n.size then .deny 0x087 n.addr
    else .pass ⟨0, w.pa⟩ (some w.leafAt)

/-- A dry-fit slot that belongs to another member (R404). -/
def State.slotBarred (s : State) (user owner : Member) (off size : Nat) : Bool :=
  user.id != owner.id && s.parts.any fun p => p.kv.windows.any fun w =>
    w.member == owner.id && w.marks.any fun k => overlaps k.2.1 (w.nd * k.2.2) off size

/-- An access that passes in a scratchpad, unless it meets an uncorrectable error (R214). -/
def State.passScratch (s : State) (l : Loc) (n : Nat) (addr : DWord) : Check :=
  if s.meetsError l n then .deny 0x087 addr else .pass l none

/-- An atomic whose other checks pass traps in a mapped region (R379). -/
def Check.barAtomic (c : Check) (n : Need) : Check :=
  match c with
  | .pass l leaf => if n.atom then .deny 0x08E n.addr else .pass l leaf
  | c => c

/-- The checks of an access by a member (R202, R214, R217, R379, R432). -/
def State.check (s : State) (m : Member) (n : Need) : Check :=
  match s.target m n.addr n.size with
  | .error c => .deny c n.addr
  | .ok (.shared va) => s.checkShared m.part n va
  | .ok (.scratch o off) =>
    if s.slotBarred m o off n.size then .deny 0x092 n.addr
    else if o.divertAt off = some .restoring then .hold
    else match o.regionAt off with
      | none => s.passScratch ⟨o.id + 1, off⟩ n.size n.addr
      | some r =>
        if n.write && !r.writable then .deny 0x08D n.addr
        else if o.divertAt off = some .diverting then
          (s.checkShared o.part n (r.base.toNat + (off - r.off))).barAtomic n
        else match assoc r.lines (r.lineOf off) with
          | none => .fill o.id (r.lineOf off) r.off
          | some (.filling _) => .hold
          | some _ => (s.passScratch ⟨o.id + 1, off⟩ n.size n.addr).barAtomic n

/-- A line of a region starts filling, on the path of the access that causes it (R217, R353). -/
def State.startFill (s : State) (member region line : Nat) (f : Filler) : State :=
  { s with nextId := s.nextId + 1 }.modMember member fun m =>
    { m with regions := updateIf m.regions (fun r => r.off == region) fun r =>
        { r with lines := assocSet r.lines line (.filling { f with id := s.nextId }) } }

/-- A fill that a thread's access causes is a path T access of the thread (R353). -/
def State.startFillFor (s : State) (t : Thread) (member region line : Nat) : State :=
  let s := s.modThread t.uid fun x => x.tick (agentT t.uid)
  s.startFill member region line ⟨0, agentT t.uid, s.clkOf t.uid, t.core, t.tid, .t⟩

/-- The fills in progress with the bytes that they read, where the page is there (R217). -/
def State.fillReads (s : State) : List (Filler × Option Loc) :=
  s.members.flatMap fun m => m.regions.flatMap fun r => r.lines.filterMap fun l => match l.2 with
    | .filling f => some (f, (s.walk (s.rootOf m.part) (r.base.toNat + l.1 * 4096)).map fun w => ⟨0, w.pa⟩)
    | _ => none

/-- The fills in progress. -/
def State.fills (s : State) : List Filler :=
  s.members.flatMap fun m => m.regions.flatMap fun r => r.lines.filterMap fun l => match l.2 with
    | .filling f => some f
    | _ => none

/-- The line of a mapped region that an access goes to, when it waits for that line's fill: the region's member, and
the line's local offset in units of 4 KiB (R217). -/
def State.lineFor (s : State) (m : Member) (n : Need) : Option (Nat × Nat) :=
  match s.target m n.addr n.size with
  | .ok (.scratch o off) => if o.divertAt off = some .restoring then none else some (o.id, off / 4096)
  | _ => none

/-! ## The accesses of threads -/

/-- The accesses that an operation checks before it is performed, in order. -/
def MemOp.needs (op : MemOp) : List Need :=
  match op with
  | .load a n _ _ => [⟨a, n, false, false⟩]
  | .store a bs => [⟨a, bs.length, true, false⟩]
  | .atomic a k _ _ _ _ => [⟨a, if k = .cas64 then 8 else 4, true, true⟩]
  | .table a _ _ => [⟨a, 4, false, false⟩, ⟨a + 4, 4, false, false⟩]
  | .monitor a _ => [⟨a, 4, false, false⟩]
  | .mmov x1 x2 => [⟨x1, 4, true, false⟩, ⟨x2, 4, false, false⟩]
  | .mswp x1 x2 => [⟨x1, 4, true, false⟩, ⟨x2, 4, true, false⟩]
  | .flush _ _ => []

/-- The thread that makes a flight's access. -/
def Flight.owner (f : Flight) : Nat := f.agent / 4

/-- An access of an agent with a clock does not happen before an access with this clock. -/
def notBefore (clk : Clock) (agent : Nat) (own : Clock) : Bool := decide (Clock.get clk agent < Clock.get own agent)

/-- Every access of a thread on its way that happens before an access with this clock has been performed at its home
(R355, R360). -/
def State.landed (s : State) (clk : Clock) : Bool := s.flights.all fun g => g.applied || notBefore clk g.agent g.clk

/-- The same, the fills in progress among them (R353). -/
def State.settled (s : State) (clk : Clock) : Bool :=
  s.landed clk && s.fills.all fun f => notBefore clk f.agent f.clk

/-! ## Accesses through a diverted region (R371, R432) -/

/-- The mapped region of a diverted member that an address lies in, with its local offset: accesses there are made at the
bound range (R432). -/
def State.viaOf (s : State) (m : Member) (addr : DWord) : Option (Member × Region × Nat) :=
  match s.target m addr 1 with
  | .ok (.scratch o off) =>
    if o.divertAt off = some .diverting then (o.regionAt off).map fun r => (o, r, off) else none
  | _ => none

/-- An access of a byte at the bound range counts in the history of the byte of the line that it stands for: what races
with it there races with it here, and later accesses of the line see it (R371). -/
def Shadow.crossed (v l : Shadow) (agent : Nat) (clk : Clock) (write : Bool) : Shadow × Shadow :=
  let hit := races agent clk 0
  (if write then v.wrote agent clk 0 else (v.read agent clk 0).1,
    { l with
      writes := l.writes ++ v.writes.filter hit
      reads := if write then l.reads ++ v.reads.filter hit else l.reads })

/-- The same for n bytes from a byte of a line and the byte that stands for it. -/
def State.crossOver (s : State) (agent : Nat) (clk : Clock) (write : Bool) (v l : Loc) (n : Nat) : State :=
  match n with
  | 0 => s
  | n + 1 =>
    let (hv, hl) := (s.shadowOf (v.plus n)).crossed (s.shadowOf (l.plus n)) agent clk write
    State.crossOver { s with
      shadow := upsert (upsert s.shadow (fun x => x.loc == v.plus n) hv) (fun x => x.loc == l.plus n) hl } agent clk
        write v l n

/-- Accesses of an agent go through a diverted region: they are among those that a fill brings back (R371). -/
def State.noteAway (s : State) (member region agent : Nat) (epochs : List Nat) : State :=
  s.modMember member fun m => { m with regions := updateIf m.regions (fun r => r.off == region) fun r =>
    { r with away := r.away ++ epochs.map fun e => (agent, e) } }

/-- A thread's accesses that go through a diverted region follow what comes before every access through it, and count in
the histories of its lines (R370, R371). -/
def State.goVia (s : State) (t : Thread) (m : Member) (ns : List Need) (ls : List Loc) : State :=
  let step (s : State) (x : Need × Loc) : State :=
    match s.viaOf m x.1.addr with
    | none => s
    | some (o, r, off) =>
      let s := s.modThread t.uid fun u => u.follow r.clk
      let clk := s.nextClk t.uid
      let e := Clock.get clk (agentT t.uid)
      (s.crossOver (agentT t.uid) (Clock.raise clk (agentT t.uid) (e + ns.length)) x.1.write ⟨o.id + 1, off⟩ x.2
        x.1.size).noteAway o.id r.off (agentT t.uid) ((List.range ns.length).map fun i => e + 1 + i)
  (ns.zip ls).foldl step s

/-- The number of the sampler's access type (R215). -/
def Need.sampleKind (n : Need) : Nat := if n.atom then 2 else if n.write then 1 else 0

/-- A translated access of a thread raises the leaf's heat and is counted by the sampler (R210, R215). -/
def State.noteShared (s : State) (t : Thread) (m : Member) (n : Need) (l : Loc) (leaf : Option Nat) : State :=
  match leaf with
  | none => s
  | some e =>
    (s.raiseHeat e n.write).sample m.part ⟨t.core, t.tid, n.sampleKind, n.size, 0, m.id⟩ n.addr l.off

/-- Bytes performed at a home die cache are charged to the member's account (R476). -/
def State.chargeHome (s : State) (member : Nat) (l : Loc) (n : Nat) : State :=
  if l.space = 0 then s.chargeMember member { Usage.zero with mem := n } else s

/-- How the checks of an operation end. -/
inductive Checked where
  | go (s : State) (ls : List Loc)
  | stop (s : State)

/-- Checks the accesses of an operation in order (R202, R224): the locations, or what the thread meets:
a trap, a wait for the walk, a fill, or a page fault that parks it (R213). -/
def State.checkAll (s : State) (t : Thread) (m : Member) (op : MemOp) (walked : Bool) (ns : List Need)
    (ls : List Loc) : Checked :=
  match ns with
  | [] => .go s ls
  | n :: rest =>
    match s.target m n.addr n.size, walked with
    | .ok (.shared _), false => .stop (s.setWait t.uid (.walk op))
    | _, _ =>
      match s.check m n with
      | .pass l leaf =>
        State.checkAll (s.noteShared t m n l leaf) t m op walked rest (ls ++ [l])
      | .deny c a => .stop (s.trap t.uid c a)
      | .fill o line region =>
        .stop ((s.startFillFor t o region line).setWait t.uid (.fill op o (region / 4096 + line)))
      | .hold => match s.lineFor m n with
        | some (o, line) => .stop (s.setWait t.uid (.fill op o line))
        | none => .stop (s.setWait t.uid (.walk op))
      | .absent page =>
        .stop { s.setWait t.uid (.parked op page) with
          faults := if s.faults.contains (m.part, page) then s.faults else s.faults ++ [(m.part, page)] }

/-- A new flight of a thread. -/
def State.launchFlight (s : State) (t : Thread) (agent : Nat) (op : FlightOp) (dst : List Slot) :
    State × Nat :=
  let clk := s.clkOf t.uid
  let at' := ((s.thread? t.uid).map (·.issuedAt)).getD s.clock
  let f : Flight :=
    ⟨s.nextId, agent, [t.uid], t.member, t.core, t.pc, op, dst, false, [], none, clk, at', []⟩
  ({ s with nextId := s.nextId + 1, flights := s.flights ++ [f] }, f.id)

/-- A new path T epoch of a thread's agent (R357). -/
def State.tick (s : State) (u agent : Nat) : State := s.modThread u fun t => t.tick agent

/-- A load leaves: its destinations are due (R222). -/
def State.sendLoad (s : State) (t : Thread) (l : Loc) (size : Nat) (signed : Bool) (dst : List Slot) : State :=
  let (s, id) := (s.tick t.uid (agentT t.uid)).launchFlight t (agentT t.uid) (.load l size signed) dst
  (s.markDue t.uid id dst).finish t.uid

/-- A store leaves with the data it read (R222). -/
def State.sendStore (s : State) (t : Thread) (l : Loc) (data : List Byte) : State :=
  (((s.tick t.uid (agentT t.uid)).launchFlight t (agentT t.uid) (.store l data) []).1).finish t.uid

/-- An atomic leaves; an `.acq` one holds the thread until its reply (R379, R380). -/
def State.sendAtomic (s : State) (t : Thread) (l : Loc) (k : AtomKind) (operand compare : DWord)
    (m : AtomMod) (dst : List Slot) : State :=
  let (s, id) := (s.tick t.uid (agentA t.uid)).launchFlight t (agentA t.uid) (.atomic l k operand compare m)
    (if m.nr then [] else dst)
  let s := (if m.nr then s else s.markDue t.uid id dst).finish t.uid
  if m.acq then s.setWait t.uid (.reply id) else s

/-- The member of a thread. -/
def State.memberOf (s : State) (u : Nat) : Nat := ((s.thread? u).map (·.member)).getD 0

/-- Reads a word at once, as a path T load of a thread whose earlier accesses are performed. -/
def State.readNow (s : State) (u : Nat) (l : Loc) (n : Nat) : State × Nat :=
  let s := s.tick u (agentT u)
  let clk := s.clkOf u
  let (s, bs) := s.readFor (agentT u) clk 0 l n
  (s.chargeHome (s.memberOf u) l n, leNat bs)

/-- Writes bytes at once, as a path T store of a thread whose earlier accesses are performed. -/
def State.writeNow (s : State) (u : Nat) (l : Loc) (bs : List Byte) : State :=
  let s := s.tick u (agentT u)
  let clk := s.clkOf u
  (s.writeFor (agentT u) clk l bs).chargeHome (s.memberOf u) l bs.length

/-- A branch through a table, its first two words checked (R142): the index check, the check of the
target's word, the transfer. -/
def State.branchTable (s : State) (t : Thread) (m : Member) (op : MemOp) (addr : DWord) (index : Word)
    (call walked : Bool) (l0 l1 : Loc) : State :=
  let (s, j) := s.readNow t.uid l0 4
  let (s, n) := s.readNow t.uid l1 4
  if n ≤ index.toNat then s.trap t.uid 0x120 addr
  else
    let at2 := addr + 8 + 4 * index.setWidth 64
    match s.checkAll t m op walked [⟨at2, 4, false, false⟩] [] with
    | .stop s => s
    | .go s ls =>
      let (s, target) := (s.goVia t m [⟨at2, 4, false, false⟩] ls).readNow t.uid (ls.headD l0) 4
      let s := if call then s.setName t 31 (t.pc + 1) else s
      (s.modThread t.uid fun x => { x with join := some (BitVec.ofNat 32 j) }).jump t.uid
        (BitVec.ofNat 32 target)

/-- Monitors of a core that threads hold armed (R386): a stop has freed those of its member, until the resume
arms them again (R387, R429). -/
def State.armedOn (s : State) (core : Nat) : Nat :=
  (s.threads.filter fun t => t.core == core && t.monitor.isSome &&
    (s.member? t.member).any fun m => m.st = .running && m.divert.isNone && m.stop != .saving).length
/-- Monitors of a core (R386). -/
def monitorsOf (core : Nat) : Nat := if isM core then 64 else 16

/-- MONITOR reads its word and arms a monitor on it: the thread's own, or a free one (R386). -/
def State.armMonitor (s : State) (t : Thread) (l : Loc) (dst : List Slot) : State :=
  let (s, v) := s.readNow t.uid l 4
  let can := t.monitor.isSome || decide (s.armedOn t.core < monitorsOf t.core)
  let s := if can then s.modThread t.uid fun x => { x with monitor := some ⟨l, false⟩ } else s
  (s.writeAll t.uid dst [BitVec.ofNat 32 v]).finish t.uid

/-- An operation whose checks have passed goes ahead: loads, stores and atomics leave on their flight,
the others act at once in program order (R142, R224, R386). -/
def State.perform (s : State) (t : Thread) (m : Member) (op : MemOp) (walked : Bool) (ls : List Loc) : State :=
  let l0 : Loc := ls.headD ⟨0, 0⟩
  let l1 : Loc := ls.getD 1 l0
  match op with
  | .load _ n signed dst => s.sendLoad t l0 n signed dst
  | .store _ bs => s.sendStore t l0 bs
  | .atomic _ k o c mods dst => s.sendAtomic t l0 k o c mods dst
  | .table a i call => s.branchTable t m op a i call walked l0 l1
  | .monitor _ dst => s.armMonitor t l0 dst
  | .mmov _ _ =>
    let (s, v) := s.readNow t.uid l1 4
    (s.writeNow t.uid l0 (leBytes 4 v)).finish t.uid
  | .mswp _ _ =>
    let (s, v) := s.readNow t.uid l0 4
    let (s, w) := s.readNow t.uid l1 4
    ((s.writeNow t.uid l0 (leBytes 4 w)).writeNow t.uid l1 (leBytes 4 v)).finish t.uid
  | .flush _ _ => s

/-- An operation acts at once rather than on a flight, so the thread's earlier accesses come first. -/
def MemOp.direct (op : MemOp) : Bool :=
  match op with
  | .load _ _ _ _ => false
  | .store _ _ => false
  | .atomic _ _ _ _ _ _ => false
  | _ => true

/-- An access or command of a number is not complete yet. -/
def State.isLive (s : State) (i : Nat) : Bool :=
  (s.flights.any fun x => x.id == i) || (s.copies.any fun x => x.id == i) ||
  (s.subs.any fun x => x.id == i) || (s.fills.any fun x => x.id == i) ||
  (s.cores.any fun c => (c.mq.any fun x => x.id == i) || (c.sq.any fun x => x.id == i))

/-- Everything of a list is complete. -/
def State.allDone (s : State) (ids : List Nat) : Bool := ids.all fun i => !s.isLive i

/-- What a thread's fences hold its later accesses of a path for (R368). -/
def Thread.fenced (t : Thread) (p : Path) : List Nat :=
  ((t.fenceIds.find? fun x => x.1 == p).map (·.2)).getD []

/-- Everything that happens before a thread's next path T access is performed, and what its fences hold that
access for is complete (R357, R368). -/
def State.caughtUp (s : State) (t : Thread) : Bool := s.settled (s.nextClk t.uid) && s.allDone (t.fenced .t)

/-- A thread makes an operation's accesses: the checks that need no walk complete at once, a shared
address waits for its walk (R86, R221); a fence holds it until what it orders is complete (R368), and
nothing happens while its member is away (R428). -/
def State.attempt (s : State) (t : Thread) (op : MemOp) (walked : Bool) : State :=
  match s.member? t.member with
  | none => s
  | some m =>
    if m.st ≠ .running ∨ m.divert.isSome then s
    else if (op.direct && !s.settled (s.nextClk t.uid)) || !s.allDone (t.fenced .t) then
      s.setWait t.uid (match t.wait with | .fill _ _ _ => t.wait | _ => .walk op)
    else match s.checkAll t m op walked op.needs [] with
      | .stop s => s
      | .go s ls => (s.goVia t m op.needs ls).perform t m op walked ls

end Sys2Proof.Machine
end

