-- ==== Sys2Proof/Machine/LoadStore.lean ====
section
/-! DEFINITION. Loads, stores and address instructions (spec/09_memory_access.md R220 to R227), the
deprecated two-address forms (R224), the branches through tables (R142) and the flights of loads, stores
and atomics to their homes and back (R354, R380, R436). -/
namespace Sys2Proof.Machine

open Sys2Proof

/-- The effective address of a format M word (R89). -/
def State.dispAddr (s : State) (t : Thread) (b : Name) (o : BitVec 10) (size : Nat) : DWord :=
  s.addrPair t b + o.signExtend 64 * BitVec.ofNat 64 size
/-- The effective address of an indexed form (R223). -/
def State.indexAddr (s : State) (t : Thread) (a b : Name) (size : Nat) : DWord :=
  s.addrPair t a + (s.name t b).setWidth 64 * BitVec.ofNat 64 size

/-- The slots of a load's destination by its size (R220, R222). -/
def State.loadSlots (s : State) (t : Thread) (d : Name) (size : Nat) : List Slot :=
  if size = 16 then s.blockSlots t d 4 else if size = 8 then s.pairSlots t d else [s.slotOf t d]

/-- The bytes a store writes, by its size (R222); a data field of 0 stores zeros. -/
def State.storeData (s : State) (t : Thread) (d : Name) (size : Nat) : List Byte :=
  if size = 16 then
    if d = 0 then leBytes 16 0
    else leBytes 4 (s.name t d).toNat ++ leBytes 4 (s.name t (d + 1)).toNat ++
      leBytes 4 (s.name t (d + 2)).toNat ++ leBytes 4 (s.name t (d + 3)).toNat
  else if size = 8 then leBytes 8 (s.pair t d).toNat
  else leBytes size (s.name t d).toNat

/-- A load of the LD family (R222). -/
def loadDisp (i : Instr) (d b : Name) (o : BitVec 10) (size : Nat) (signed : Bool) (s : State) :
    Host.Outcome State Fault Refusal :=
  issueWord i s fun s t =>
    s.attempt t (.load (s.dispAddr t b o size) size signed (s.loadSlots t d size)) false
/-- A load of the LDX family (R223). -/
def loadIndex (i : Instr) (d a b : Name) (size : Nat) (signed : Bool) (s : State) :
    Host.Outcome State Fault Refusal :=
  issueWord i s fun s t =>
    s.attempt t (.load (s.indexAddr t a b size) size signed (s.loadSlots t d size)) false
/-- A store of the ST family; it reads its data when it issues (R222). -/
def storeDisp (i : Instr) (d b : Name) (o : BitVec 10) (size : Nat) (s : State) :
    Host.Outcome State Fault Refusal :=
  issueWord i s fun s t => s.attempt t (.store (s.dispAddr t b o size) (s.storeData t d size)) false
/-- A store of the STX family (R223). -/
def storeIndex (i : Instr) (d a b : Name) (size : Nat) (s : State) : Host.Outcome State Fault Refusal :=
  issueWord i s fun s t => s.attempt t (.store (s.indexAddr t a b size) (s.storeData t d size)) false

/-- R222: LD.B. -/
def execLdB (d b : Name) (o : BitVec 10) (s : State) : Host.Outcome State Fault Refusal :=
  loadDisp (.ldB d b o) d b o 1 false s
/-- R223: LDX.B. -/
def execLdxB (d a b : Name) (s : State) : Host.Outcome State Fault Refusal :=
  loadIndex (.ldxB d a b) d a b 1 false s
/-- R222: LD.BS. -/
def execLdBs (d b : Name) (o : BitVec 10) (s : State) : Host.Outcome State Fault Refusal :=
  loadDisp (.ldBs d b o) d b o 1 true s
/-- R223: LDX.BS. -/
def execLdxBs (d a b : Name) (s : State) : Host.Outcome State Fault Refusal :=
  loadIndex (.ldxBs d a b) d a b 1 true s
/-- R222: LD.H. -/
def execLdH (d b : Name) (o : BitVec 10) (s : State) : Host.Outcome State Fault Refusal :=
  loadDisp (.ldH d b o) d b o 2 false s
/-- R223: LDX.H. -/
def execLdxH (d a b : Name) (s : State) : Host.Outcome State Fault Refusal :=
  loadIndex (.ldxH d a b) d a b 2 false s
/-- R222: LD.HS. -/
def execLdHs (d b : Name) (o : BitVec 10) (s : State) : Host.Outcome State Fault Refusal :=
  loadDisp (.ldHs d b o) d b o 2 true s
/-- R223: LDX.HS. -/
def execLdxHs (d a b : Name) (s : State) : Host.Outcome State Fault Refusal :=
  loadIndex (.ldxHs d a b) d a b 2 true s
/-- R222: LD.W. -/
def execLdW (d b : Name) (o : BitVec 10) (s : State) : Host.Outcome State Fault Refusal :=
  loadDisp (.ldW d b o) d b o 4 false s
/-- R223: LDX.W. -/
def execLdxW (d a b : Name) (s : State) : Host.Outcome State Fault Refusal :=
  loadIndex (.ldxW d a b) d a b 4 false s
/-- R222: LD.D. -/
def execLdD (d b : Name) (o : BitVec 10) (s : State) : Host.Outcome State Fault Refusal :=
  loadDisp (.ldD d b o) d b o 8 false s
/-- R223: LDX.D. -/
def execLdxD (d a b : Name) (s : State) : Host.Outcome State Fault Refusal :=
  loadIndex (.ldxD d a b) d a b 8 false s
/-- R222: LD.Q. -/
def execLdQ (d b : Name) (o : BitVec 10) (s : State) : Host.Outcome State Fault Refusal :=
  loadDisp (.ldQ d b o) d b o 16 false s
/-- R223: LDX.Q. -/
def execLdxQ (d a b : Name) (s : State) : Host.Outcome State Fault Refusal :=
  loadIndex (.ldxQ d a b) d a b 16 false s
/-- R222: ST.B. -/
def execStB (d b : Name) (o : BitVec 10) (s : State) : Host.Outcome State Fault Refusal :=
  storeDisp (.stB d b o) d b o 1 s
/-- R223: STX.B. -/
def execStxB (d a b : Name) (s : State) : Host.Outcome State Fault Refusal :=
  storeIndex (.stxB d a b) d a b 1 s
/-- R222: ST.H. -/
def execStH (d b : Name) (o : BitVec 10) (s : State) : Host.Outcome State Fault Refusal :=
  storeDisp (.stH d b o) d b o 2 s
/-- R223: STX.H. -/
def execStxH (d a b : Name) (s : State) : Host.Outcome State Fault Refusal :=
  storeIndex (.stxH d a b) d a b 2 s
/-- R222: ST.W. -/
def execStW (d b : Name) (o : BitVec 10) (s : State) : Host.Outcome State Fault Refusal :=
  storeDisp (.stW d b o) d b o 4 s
/-- R223: STX.W. -/
def execStxW (d a b : Name) (s : State) : Host.Outcome State Fault Refusal :=
  storeIndex (.stxW d a b) d a b 4 s
/-- R222: ST.D. -/
def execStD (d b : Name) (o : BitVec 10) (s : State) : Host.Outcome State Fault Refusal :=
  storeDisp (.stD d b o) d b o 8 s
/-- R223: STX.D. -/
def execStxD (d a b : Name) (s : State) : Host.Outcome State Fault Refusal :=
  storeIndex (.stxD d a b) d a b 8 s
/-- R222: ST.Q. -/
def execStQ (d b : Name) (o : BitVec 10) (s : State) : Host.Outcome State Fault Refusal :=
  storeDisp (.stQ d b o) d b o 16 s
/-- R223: STX.Q. -/
def execStxQ (d a b : Name) (s : State) : Host.Outcome State Fault Refusal :=
  storeIndex (.stxQ d a b) d a b 16 s

/-- What a prefetch does: a walk's heat and sample, or the start of a mapped line's fill; an address that
would fault is ignored (R210, R215, R225). -/
def State.prefetch (s : State) (t : Thread) (h : BitVec 2) (addr : DWord) : State :=
  match s.member? t.member with
  | none => s
  | some m =>
    match s.target m addr 64, s.check m ⟨addr, 64, false, false⟩ with
    | .ok (.shared va), .pass l (some leaf) =>
      if h = 2 then s
      else (s.raiseHeat leaf false).sample m.part ⟨t.core, t.tid, 3, 64, 0, m.id⟩ (BitVec.ofNat 64 va) l.off
    | .ok (.scratch _ _), .fill o line region => if h = 2 then s.startFillFor t o region line else s
    | _, _ => s

/-- R225: PRFM; the fill that PRFM.m starts is a path T access, which a fence holds (R368). -/
def execPrfm (h : BitVec 2) (b : Name) (o : BitVec 10) (s : State) : Host.Outcome State Fault Refusal :=
  issueWord (.prfm h b o) s fun s t =>
    if h == 2 && !s.allDone (t.fenced .t) then s
    else (s.prefetch t h (s.dispAddr t b o 64)).finish t.uid

/-- The space code of an address: 0 none, 1 local, 2 cluster, 3 shared (R226). -/
def spaceCode (a : DWord) : Nat :=
  if a.toNat < sharedEnd then 3
  else if (a - localBase).toNat < 2 ^ 24 then 1
  else if (a - clusterBase).toNat < 2 ^ 26 then 2
  else 0

/-- The classification of an address (R226). -/
def State.classify (s : State) (m : Member) (a : DWord) : Word :=
  let space := spaceCode a
  let cpos := if space = 2 then (a - clusterBase).toNat / 2 ^ 24 else 0
  let (inb, mapped) := match s.target m a 1 with
    | .error _ => (false, false)
    | .ok (.shared _) => (true, false)
    | .ok (.scratch o off) => (true, (o.regionAt off).isSome)
  field cpos 16 8 ||| field (if mapped then 1 else 0) 9 1 ||| field (if inb then 1 else 0) 8 1 ||| field space 0 4

/-- R226: APTEST. -/
def execAptest (d a : Name) (s : State) : Host.Outcome State Fault Refusal :=
  issueWord (.aptest d a) s fun s t =>
    s.result t d (((s.member? t.member).map fun m => s.classify m (s.pair t a)).getD 0)

/-- R227: APCVT.off. -/
def addrOffset (a : DWord) : DWord :=
  match spaceCode a with
  | 3 => a
  | 1 => a - localBase
  | 2 => a - clusterBase
  | _ => BitVec.allOnes 64
/-- R227: APCVT.loc. -/
def addrLocal (a : DWord) : DWord := if a.toNat < 2 ^ 24 then localBase + a else BitVec.allOnes 64
/-- R227: APCVT.clu. -/
def addrCluster (core : Nat) (a : DWord) : DWord :=
  if spaceCode a = 1 ∧ isM core then
    clusterBase + BitVec.ofNat 64 (core % 4 * 2 ^ 24) + (a - localBase)
  else BitVec.allOnes 64

/-- R227: APCVT.off. -/
def execApcvtOff (d a : Name) (s : State) : Host.Outcome State Fault Refusal :=
  issueWord (.apcvtOff d a) s fun s t => s.resultPair t d (addrOffset (s.pair t a))
/-- R227: APCVT.loc. -/
def execApcvtLoc (d a : Name) (s : State) : Host.Outcome State Fault Refusal :=
  issueWord (.apcvtLoc d a) s fun s t => s.resultPair t d (addrLocal (s.pair t a))
/-- R227: APCVT.clu. -/
def execApcvtClu (d a : Name) (s : State) : Host.Outcome State Fault Refusal :=
  issueWord (.apcvtClu d a) s fun s t => s.resultPair t d (addrCluster t.core (s.pair t a))

/-- R224: MMOV.W. -/
def execMmovW (a b : Name) (s : State) : Host.Outcome State Fault Refusal :=
  issueWord (.mmovW a b) s fun s t => s.attempt t (.mmov (s.addrPair t a) (s.addrPair t b)) false
/-- R224: MSWP.W. -/
def execMswpW (a b : Name) (s : State) : Host.Outcome State Fault Refusal :=
  issueWord (.mswpW a b) s fun s t => s.attempt t (.mswp (s.addrPair t a) (s.addrPair t b)) false

/-- The effect of BI and CALLI (R142). -/
def State.tableBranch (s : State) (t : Thread) (a b : Name) (call : Bool) : State :=
  let addr := s.addrPair t a
  if addr.toNat % 4 ≠ 0 then s.trap t.uid 0x122 addr
  else s.attempt t (.table addr (s.name t b) call) false

/-- R142: BI. -/
def execBi (a b : Name) (s : State) : Host.Outcome State Fault Refusal :=
  issueWord (.bi a b) s fun s t => s.tableBranch t a b false
/-- R142: CALLI. -/
def execCalli (a b : Name) (s : State) : Host.Outcome State Fault Refusal :=
  issueWord (.calli a b) s fun s t => s.tableBranch t a b true

end Sys2Proof.Machine
end

