-- ==== Sys2Proof/Machine/Atomics.lean ====
section
/-! DEFINITION. Atomics (spec/17_sync.md R377 to R381), what is performed at a home, and the landing of
the replies of loads and atomics (R354, R360, R380, R436). -/
namespace Sys2Proof.Machine

open Sys2Proof

/-- The combination of a 32-bit atomic other than a compare (R377). -/
def combineWord (k : AtomKind) (old v : Word) : Word :=
  match k with
  | .add => old + v
  | .smin => if v.slt old then v else old
  | .smax => if old.slt v then v else old
  | .band => old &&& v
  | .bor => old ||| v
  | .bxor => old ^^^ v
  | .fadd => addF32 .rn old v
  | .fmax => maxF32 old v
  | _ => v

/-- Bytes of an atomic's operand (R379). -/
def AtomKind.size (k : AtomKind) : Nat :=
  match k with
  | .cas64 => 8
  | _ => 4

/-- A compare-and-swap form. -/
def AtomKind.isCas (k : AtomKind) : Bool :=
  match k with
  | .cas => true
  | .cas64 => true
  | _ => false

/-- What an atomic writes, or nothing for a failed compare (R377). -/
def combine (k : AtomKind) (old operand compare : DWord) : Option DWord :=
  if k.isCas then (if old = compare then some operand else none)
  else some ((combineWord k (loWord old) (loWord operand)).setWidth 64)

/-- The cores that a scope of an issuing core includes (R361); a number of 224 or above is the network
or Nymesque, which only the device scope includes. -/
def scopeIncludes (scope core other : Nat) : Bool :=
  match scope with
  | 0 => core == other
  | 1 => if isM core then isM other && core / 4 == other / 4 else core == other
  | 2 => decide (core < Config.cores) && decide (other < Config.cores) && dieOf core == dieOf other
  | _ => true

/-- What an acquiring atomic at a location learns: every release in its chain whose scope and its own
each include both issuing cores (R360). -/
def State.acquired (s : State) (l : Loc) (core scope : Nat) : Clock :=
  (s.releases.filter fun r => r.loc == l && scopeIncludes r.scope r.core core &&
    scopeIncludes scope core r.core).foldl (fun c r => Clock.join c r.clk) []

/-- One indivisible atomic step at the home by an agent on a core (R354, R360, R379): the state after, the
old value, and what it acquires. -/
def State.atomicStep (s : State) (agent core : Nat) (clk : Clock) (l : Loc) (k : AtomKind)
    (operand compare : DWord) (m : AtomMod) : State × DWord × Clock :=
  let (s, bs) := s.readFor agent clk k.size l k.size
  let old := leDWord bs
  let learnt := if m.acq then s.acquired l core m.scope.toNat else []
  match combine k old operand compare with
  | none => (s, old, learnt)
  | some v =>
    let s := (s.noteWrite agent clk k.size l k.size).putAt l (leBytes k.size v.toNat)
    let s := if m.pub then { s with releases := s.releases ++ [⟨l, k.size, Clock.join clk learnt, core, m.scope.toNat⟩] } else s
    (s, old, learnt)

/-- The reply words of an atomic. -/
def oldWords (k : AtomKind) (old : DWord) : List Word :=
  if k = .cas64 then [loWord old, hiWord old] else [loWord old]

/-- The register words of loaded bytes (R222). -/
def loadWords (size : Nat) (signed : Bool) (bs : List Byte) : List Word :=
  match size with
  | 1 => [if signed then (BitVec.ofNat 8 (leNat bs)).signExtend 32 else leWord bs]
  | 2 => [if signed then (BitVec.ofNat 16 (leNat bs)).signExtend 32 else leWord bs]
  | 4 => [leWord bs]
  | 8 => [leWord (slice bs 0 4), leWord (slice bs 4 4)]
  | _ => [leWord (slice bs 0 4), leWord (slice bs 4 4), leWord (slice bs 8 4), leWord (slice bs 12 4)]

/-- The location a flight goes to. -/
def FlightOp.loc (op : FlightOp) : Option Loc :=
  match op with
  | .load l _ _ => some l
  | .store l _ => some l
  | .atomic l _ _ _ _ => some l
  | _ => none

/-- The bytes a flight goes to. -/
def FlightOp.bytes (op : FlightOp) : Nat :=
  match op with
  | .load _ n _ => n
  | .store _ bs => bs.length
  | .atomic _ k _ _ _ => k.size
  | _ => 0

/-- Two operations touch a common byte. -/
def FlightOp.touches (x y : FlightOp) : Bool :=
  match x.loc, y.loc with
  | some a, some b => a.space == b.space && overlaps a.off x.bytes b.off y.bytes
  | _, _ => false

/-- An atomic that carries `.pub`, or a step of the KV unit that acts as one (R346, R360, R367). -/
def FlightOp.publishes (op : FlightOp) : Bool :=
  match op with
  | .atomic _ _ _ _ m => m.pub
  | .kv (.alloc _ _ _ _) => true
  | .kv (.dfkeep _ _ _) => true
  | _ => false

/-- A flight writes memory. -/
def FlightOp.writes (op : FlightOp) : Bool :=
  match op with
  | .store _ _ => true
  | .atomic _ _ _ _ _ => true
  | _ => false

/-- An operation touches some bytes. -/
def FlightOp.reaches (x : FlightOp) (l : Loc) (n : Nat) : Bool :=
  x.loc.any fun a => a.space == l.space && overlaps a.off x.bytes l.off n

/-- A flight can be performed: the accesses on their way and the fills in progress that happen before it and touch its
bytes have been performed, and all that happen before it when it publishes (R355, R357, R360) (DEDUCED 53). -/
def State.clear (s : State) (f : Flight) : Bool :=
  (s.flights.all fun g => g.id == f.id || g.applied || notBefore f.clk g.agent g.clk ||
    !(f.op.publishes || f.op.touches g.op)) &&
  s.fillReads.all fun x => notBefore f.clk x.1.agent x.1.clk ||
    !(f.op.publishes || x.2.any fun l => f.op.reaches l 4096)

/-- The home takes accesses: its region is not being restored (R438). -/
def State.homeOpen (s : State) (l : Loc) : Bool :=
  match l.space with
  | 0 => true
  | m + 1 => match s.member? m with
    | none => true
    | some x => x.divertAt l.off != some .restoring

/-- The member of a location has gone: it was cancelled while it was away (R434). -/
def State.homeGone (s : State) (l : Loc) : Bool :=
  match l.space with
  | 0 => false
  | m + 1 => (s.member? m).any Member.isReleased

/-- Bytes that the manual does not state: free values. -/
def State.freeBytes (s : State) (n : Nat) : State × List Byte :=
  ({ s with fresh := s.fresh + n }, (List.range n).map fun i => Config.raced (s.fresh + i))

/-- The flight of a number. -/
def State.flight? (s : State) (i : Nat) : Option Flight := s.flights.find? fun f => f.id == i
/-- A flight ends. -/
def State.dropFlight (s : State) (i : Nat) : State :=
  { s with flights := s.flights.filter fun f => f.id != i }

/-- A store or atomic whose home has gone reaches nothing; what an atomic returns is free (R434) (DESIGN CHOICE 82). -/
def State.performGone (s : State) (f : Flight) : State :=
  match f.op with
  | .store _ _ => s.dropFlight f.id
  | .atomic _ k _ _ m =>
    if m.nr then s.dropFlight f.id
    else
      let (s, bs) := s.freeBytes k.size
      s.modFlight f.id fun g => { g with applied := true, reply := oldWords k (leDWord bs) }
  | _ => s

/-- A store or atomic is performed at its home, in the order of happens-before (R354, R355). -/
def State.performFlight (s : State) (f : Flight) : State :=
  if f.op.loc.any s.homeGone then s.performGone f
  else match f.op with
  | .store l bs => ((s.writeFor f.agent f.clk l bs).chargeHome f.member l bs.length).dropFlight f.id
  | .atomic l k o c m =>
    let (s, old, learnt) := s.atomicStep f.agent f.core f.clk l k o c m
    let s := s.chargeHome f.member l k.size
    if m.nr then s.dropFlight f.id
    else s.modFlight f.id fun g => { g with applied := true, reply := oldWords k old, learnt := learnt }
  | _ => s

/-- WRITE_PERFORMED_AT_HOME (R354): the store or atomic of the flight named by the input. -/
def execWritePerformedAtHome (s : State) : Host.Outcome State Fault Refusal :=
  match s.input with
  | .id i =>
    match s.flight? i with
    | none => .next s
    | some f =>
      if f.applied ∨ ¬s.clear f ∨ ¬(f.op.loc.all s.homeOpen) then .next s
      else .next (s.performFlight f)
  | _ => .next s

/-- The operand of an atomic and its compare value (R377). -/
def State.atomOperands (s : State) (t : Thread) (k : AtomKind) (d : Name) : DWord × DWord :=
  match k with
  | .cas => ((s.name t (d + 1)).setWidth 64, (s.name t d).setWidth 64)
  | .cas64 => (s.pair t (d + 2), s.pair t d)
  | _ => ((s.name t d).setWidth 64, 0)

/-- An atomic (R379). -/
def atomOp (i : Instr) (k : AtomKind) (d a : Name) (m : AtomMod) (s : State) :
    Host.Outcome State Fault Refusal :=
  issueWord i s fun s t =>
    let (o, c) := s.atomOperands t k d
    s.attempt t (.atomic (s.addrPair t a) k o c m
      (if k = .cas64 then s.pairSlots t d else [s.slotOf t d])) false

/-- R377: AADD. -/
def execAadd (d a : Name) (m : AtomMod) (s : State) : Host.Outcome State Fault Refusal :=
  atomOp (.aadd d a m) .add d a m s
/-- R377: AMIN. -/
def execAmin (d a : Name) (m : AtomMod) (s : State) : Host.Outcome State Fault Refusal :=
  atomOp (.amin d a m) .smin d a m s
/-- R377: AMAX. -/
def execAmax (d a : Name) (m : AtomMod) (s : State) : Host.Outcome State Fault Refusal :=
  atomOp (.amax d a m) .smax d a m s
/-- R377: AAND. -/
def execAand (d a : Name) (m : AtomMod) (s : State) : Host.Outcome State Fault Refusal :=
  atomOp (.aand d a m) .band d a m s
/-- R377: AOR. -/
def execAor (d a : Name) (m : AtomMod) (s : State) : Host.Outcome State Fault Refusal :=
  atomOp (.aor d a m) .bor d a m s
/-- R377: AXOR. -/
def execAxor (d a : Name) (m : AtomMod) (s : State) : Host.Outcome State Fault Refusal :=
  atomOp (.axor d a m) .bxor d a m s
/-- R377: AXCHG. -/
def execAxchg (d a : Name) (m : AtomMod) (s : State) : Host.Outcome State Fault Refusal :=
  atomOp (.axchg d a m) .xchg d a m s
/-- R377: ACAS. -/
def execAcas (d a : Name) (m : AtomMod) (s : State) : Host.Outcome State Fault Refusal :=
  atomOp (.acas d a m) .cas d a m s
/-- R377: ACAS64. -/
def execAcas64 (d a : Name) (m : AtomMod) (s : State) : Host.Outcome State Fault Refusal :=
  atomOp (.acas64 d a m) .cas64 d a m s
/-- R377: AFADD. -/
def execAfadd (d a : Name) (m : AtomMod) (s : State) : Host.Outcome State Fault Refusal :=
  atomOp (.afadd d a m) .fadd d a m s
/-- R377: AFMAX. -/
def execAfmax (d a : Name) (m : AtomMod) (s : State) : Host.Outcome State Fault Refusal :=
  atomOp (.afmax d a m) .fmax d a m s

/-- The pause in cycles that a failed compare with a spin hint opens (R378, R379). -/
def spinCycles (spin : BitVec 2) : Nat :=
  match spin.toNat with
  | 1 => 64
  | 2 => 512
  | 3 => 4096
  | _ => 0

end Sys2Proof.Machine
end

