-- ==== Sys2Proof/Machine/MapUnit.lean ====
section
/-! DEFINITION. Mapped scratchpad regions (spec/09_memory_access.md R216 to R219, R228 to R231): binding,
fills, write-back and release. -/
namespace Sys2Proof.Machine

open Sys2Proof

/-- A line is Filling (R217). -/
def Line.isFilling (l : Line) : Bool :=
  match l with
  | .filling _ => true
  | _ => false

/-- A transfer of an engine or a fill to some bytes of a member's scratchpad is in flight: an arrival on its way, or a
fill in progress (R302). -/
def State.engineInbound (s : State) (m : Member) (off len : Nat) : Bool :=
  (s.arrivals.any fun a => a.loc.space == m.id + 1 && overlaps a.loc.off 16 off len) ||
  m.regions.any fun r => r.lines.any fun l => l.2.isFilling && overlaps (r.off + l.1 * 4096) 4096 off len

/-- An inbound transfer to some bytes of a member's scratchpad is in flight, an access of a thread among them
(R302) (DEDUCED 56). -/
def State.inbound (s : State) (m : Member) (off len : Nat) : Bool :=
  s.engineInbound m off len ||
  s.flights.any fun f => !f.applied && f.op.loc.any fun l => l.space == m.id + 1 && overlaps l.off f.op.bytes off len

/-- The unit count, writable bit and reserved bits of a MAPSET config (R228). -/
def mapConfigOk (c : Word) : Bool := c.getLsbD 7 == false && c.extractLsb' 9 23 == 0

/-- The checks of MAPSET in order: the cause and `xaddr` of the first that fails (R228). -/
def State.mapsetCause (s : State) (m : Member) (g : DWord) (o : Nat) (c : Word) : Option (Nat × DWord) :=
  let n := (c.extractLsb' 0 7).toNat
  if !mapConfigOk c || n == 0 || o % 65536 != 0 || g.toNat % 65536 != 0 ||
      decide (m.scratchBytes < o + n * 65536) then some (0x088, BitVec.ofNat 64 o)
  else if decide (sharedEnd < g.toNat + n * 65536) ||
      !inRanges (s.rangesOf m.part) g.toNat (n * 65536) then some (0x088, g)
  else if m.regions.any fun r => overlaps r.off (r.units * 65536) o (n * 65536) then
    some (0x089, BitVec.ofNat 64 o)
  else if 16 ≤ m.regions.length then some (0x08C, 0)
  else none

/-- R228: MAPSET. -/
def execMapset (d a b : Name) (s : State) : Host.Outcome State Fault Refusal :=
  issueWord (.mapset d a b) s fun s t =>
    match s.member? t.member with
    | none => s
    | some m =>
      let g := s.pair t a
      let o := (s.name t b).toNat
      let c := s.name t d
      match s.mapsetCause m g o c with
      | some (cause, x) => s.trap t.uid cause x
      | none =>
        let n := (c.extractLsb' 0 7).toNat
        if s.inbound m o (n * 65536) then s
        else (s.modMember m.id fun x =>
          { x with regions := insertBy (·.off) ⟨o, n, g, c.getLsbD 8, [], [], []⟩ x.regions }).finish t.uid

/-- The marked sectors of a region in ascending order, as line and sector (R218). -/
def Region.marked (r : Region) : List (Nat × Nat) :=
  (sortBy (·.1) r.lines).flatMap fun l =>
    match l.2 with
    | .dirty d => ((List.range 64).filter fun i => d.getLsbD i).map fun i => (l.1, i)
    | _ => []

/-- A written-back sector is no longer marked; a line without marks is Clean (R217). -/
def Region.clear (r : Region) (line sector : Nat) : Region :=
  match assoc r.lines line with
  | some (.dirty d) =>
    let rest := d &&& ~~~(1#64 <<< sector)
    { r with lines := assocSet r.lines line (if rest = 0 then .clean else .dirty rest) }
  | _ => r

/-- What ends a write-back: a page that is not there, the translation of a line, or an uncorrectable error in a
sector of a line, with the sector's local address (R213, R214, R218). -/
inductive BackEnd where
  | page (line page : Nat)
  | line (line : Nat)
  | error (line : Nat) (addr : DWord)
  deriving DecidableEq, Repr

/-- Writes marked sectors back to the global range, whole, as path T writes of an agent; stops at the
first that fails (R214, R218). A save takes the sectors as they stand, which orders nothing (R371). -/
def State.writeBack (s : State) (agent : Nat) (clk : Clock) (core tid : Nat) (seen : Bool) (m : Member) (r : Region)
    (sectors : List (Nat × Nat)) : State × Option BackEnd :=
  match sectors with
  | [] => (s, none)
  | (line, i) :: rest =>
    let off := line * 4096 + i * 64
    let va := r.base.toNat + off
    let n : Need := ⟨BitVec.ofNat 64 va, 64, true, false⟩
    let home : Loc := ⟨m.id + 1, r.off + off⟩
    if s.meetsError home 64 then (s, some (.error line (localBase + BitVec.ofNat 64 home.off)))
    else match s.checkShared m.part n va with
    | .pass l leaf =>
      let (s, bs) := if seen then s.readSeen home 64 else s.readFor agent clk 0 home 64
      let s := s.writeFor agent clk l bs
      let s := match leaf with
        | none => s
        | some e => (s.raiseHeat e true).sample m.part ⟨core, tid, 5, 64, 0, m.id⟩ n.addr l.off
      let s := s.chargeHome m.id l 64
      let s := s.modMember m.id fun x =>
        { x with regions := updateIf x.regions (fun y => y.off == r.off) fun y => y.clear line i }
      State.writeBack s agent clk core tid seen m r rest
    | .absent page => (s, some (.page line page))
    | _ => (s, some (.line line))

/-- The global address of a line. -/
def Region.lineAddr (r : Region) (line : Nat) : DWord := r.base + BitVec.ofNat 64 (line * 4096)

/-- MAPFLUSH and MAPREL of a region, in the program order of the thread (R229, R230, R370): a page fault
parks the thread, an uncorrectable error in a sector traps with cause 0x087 and another failure with cause
0x08A, an error or a poisoned page at the global sector among them (DESIGN CHOICE 92). -/
def State.flushRegion (s : State) (t : Thread) (off : Nat) (release : Bool) : State :=
  match s.member? t.member with
  | none => s
  | some m =>
    if m.st ≠ .running ∨ m.divert.isSome then s
    else
    match m.regions.find? fun r => r.off == off with
    | none => s.trap t.uid 0x08B (BitVec.ofNat 64 off)
    | some r =>
      if !s.caughtUp t || (release && s.inbound m off (r.units * 65536)) then
        s.setWait t.uid (.walk (.flush off release))
      else
        let s := s.tick t.uid (agentT t.uid)
        let clk := s.clkOf t.uid
        match s.writeBack (agentT t.uid) clk t.core t.tid false m r r.marked with
        | (s, none) =>
          let s := if release then s.modMember m.id fun x =>
              { x with regions := x.regions.filter fun y => y.off != off } else s
          s.finish t.uid
        | (s, some (.page _ page)) =>
          { s.setWait t.uid (.parked (.flush off release) page) with
            faults := if s.faults.contains (m.part, page) then s.faults else s.faults ++ [(m.part, page)] }
        | (s, some (.error _ addr)) => s.trap t.uid 0x087 addr
        | (s, some (.line line)) => s.trap t.uid 0x08A (r.lineAddr line)

/-- R229: MAPREL. -/
def execMaprel (a : Name) (s : State) : Host.Outcome State Fault Refusal :=
  issueWord (.maprel a) s fun s t => s.flushRegion t (s.name t a).toNat true
/-- R230: MAPFLUSH. -/
def execMapflush (a : Name) (s : State) : Host.Outcome State Fault Refusal :=
  issueWord (.mapflush a) s fun s t => s.flushRegion t (s.name t a).toNat false

/-- Starts fills of the Invalid lines among some lines of a region (R231). -/
def State.startFills (s : State) (t : Thread) (m : Nat) (r : Region) (lines : List Nat) : State :=
  match lines with
  | [] => s
  | l :: rest =>
    State.startFills (if (assoc r.lines l).isNone then s.startFillFor t m r.off l else s) t m r rest

/-- R231: MAPFILL; its fills are path T accesses, which a fence holds (R353, R368). -/
def execMapfill (a b : Name) (s : State) : Host.Outcome State Fault Refusal :=
  issueWord (.mapfill a b) s fun s t =>
    let o := (s.name t a).toNat
    let n := (s.name t b).toNat
    if n = 0 then s.finish t.uid
    else match s.member? t.member with
      | none => s
      | some m =>
        match m.regionAt o with
        | none => s.trap t.uid 0x08B (BitVec.ofNat 64 o)
        | some r =>
          if r.off + r.units * 65536 < o + n then s.trap t.uid 0x08B (BitVec.ofNat 64 o)
          else
            let first := r.lineOf o
            let lines := (List.range (r.lineOf (o + n - 1) + 1 - first)).map fun i => first + i
            if s.allDone (t.fenced .t) then (s.startFills t m.id r lines).finish t.uid else s

/-- TRANSLATION_WALK_END (R86): the walk of the thread named by the input ends, and its access passes,
parks the thread, or traps; one that waits for a line looks at it again. -/
def execTranslationWalkEnd (s : State) : Host.Outcome State Fault Refusal :=
  match s.input with
  | .id u =>
    match s.thread? u with
    | none => .next s
    | some t =>
      match t.wait with
      | .walk (.flush off release) => .next (s.flushRegion t off release)
      | .walk op => .next (s.attempt t op true)
      | .fill op _ _ => .next (s.attempt t op false)
      | _ => .next s
  | _ => .next s

/-- A thread's access waits on a line of a member's region (R217). -/
def Thread.waitsOnLine (member line : Nat) (t : Thread) : Bool :=
  match t.wait with
  | .fill _ m l => m == member && l == line
  | _ => false

/-- The accesses that waited for a line are made again (R217). -/
def State.retry (s : State) (ts : List Thread) : State :=
  match ts with
  | [] => s
  | t :: rest =>
    match t.wait with
    | .fill op _ _ => State.retry (s.attempt t op false) rest
    | _ => State.retry s rest

/-- The accesses that waited for a line trap with cause 0x08A (R217). -/
def State.trapAll (s : State) (ts : List Thread) (cause : Nat) (addr : DWord) : State :=
  match ts with
  | [] => s
  | t :: rest => State.trapAll (s.trap t.uid cause addr) rest cause addr

/-- The region and line of a member that are Filling, by the line's local offset in units of 4 KiB, with the
access that started the fill. -/
def State.fillingLine (s : State) (member line : Nat) : Option (Member × Region × Nat × Filler) :=
  match s.member? member with
  | none => none
  | some m =>
    match m.regionAt (line * 4096) with
    | none => none
    | some r =>
      let k := r.lineOf (line * 4096)
      match assoc r.lines k with
      | some (.filling f) => some (m, r, k, f)
      | _ => none

/-- Sets the state of a line of a region. -/
def State.setLine (s : State) (member region line : Nat) (l : Option Line) : State :=
  s.modMember member fun m =>
    { m with regions := updateIf m.regions (fun r => r.off == region) fun r =>
        { r with lines := match l with
          | some l => assocSet r.lines line l
          | none => r.lines.filter fun x => x.1 != line } }

/-- The number of a path in the sampler's records (R215). -/
def Path.number (p : Path) : Nat :=
  match p with
  | .t => 0
  | .c => 1
  | .m => 2
  | .i => 3
  | .s => 4
  | .n => 5

/-- A fill reads bytes of its line where accesses were made while the member was away: those stand for accesses of the
line, so it does not race with them, and the line's history has them again (R371). -/
def State.readBack (s : State) (agent : Nat) (clk : Clock) (away : List (Nat × Nat)) (l home : Loc) (n : Nat) :
    State × List Byte :=
  match n with
  | 0 => (s, [])
  | n + 1 =>
    let (s, rest) := State.readBack s agent clk away l home n
    let h := s.shadowOf (l.plus n)
    let v := s.shadowOf (home.plus n)
    let back (a : Nat × Nat × Nat) : Bool := away.contains (a.1, a.2.1)
    let racing := ({ h with writes := h.writes.filter fun a => !back a }.read agent clk 0).2
    let b := if racing then Config.raced s.fresh else (s.bytesAt (l.plus n) 1).headD 0
    ({ s with
        shadow := upsert (upsert s.shadow (fun x => x.loc == l.plus n) { (h.read agent clk 0).1 with raced := racing })
          (fun x => x.loc == home.plus n) { v with
            writes := v.writes ++ h.writes.filter fun a => back a && !v.writes.contains a
            reads := v.reads ++ h.reads.filter fun a => back a && !v.reads.contains a }
        fresh := if racing then s.fresh + 1 else s.fresh }, rest ++ [b])

/-- A fill reads its global line at its home, as an access of the one that started it, and replaces the
scratchpad line (R217, R353, R370, R371). -/
def State.fillLine (s : State) (m : Member) (r : Region) (k : Nat) (f : Filler) (l : Loc) (leaf : Option Nat) :
    State :=
  let off := r.off + k * 4096
  let (s, bs) := match r.away with
    | [] => s.readFor f.agent (Clock.join r.clk f.clk) 0 l 4096
    | away => s.readBack f.agent (Clock.join r.clk f.clk) away l ⟨m.id + 1, off⟩ 4096
  let s := match leaf with
    | none => s
    | some e => (s.raiseHeat e false).sample m.part ⟨f.core, f.tid, 4, 4096, f.path.number, m.id⟩
        (r.lineAddr k) l.off
  let s := s.chargeHome m.id l 4096
  let s := (s.modMember m.id fun x => { x with scratch := x.scratch.put off bs }).hitMonitors ⟨m.id + 1, off⟩ 4096
  (s.refill (Clock.join r.clk f.clk) ⟨m.id + 1, off⟩ 4096).setLine m.id r.off k (some .clean)

/-- The check of a fill's read. -/
def State.checkFill (s : State) (m : Member) (r : Region) (k : Nat) : Check :=
  s.checkShared m.part ⟨r.lineAddr k, 4096, false, false⟩ (r.lineAddr k).toNat

/-- What happens before a fill has been performed; the fills of one access or thread need not wait for each other, and
what was done at the line while its member was away is done (R371). -/
def State.fillReady (s : State) (r : Region) (f : Filler) : Bool :=
  let clk := r.away.foldl (fun c a => Clock.raise c a.1 a.2) (Clock.join r.clk f.clk)
  s.landed clk && s.fills.all fun g => g.agent == f.agent || notBefore clk g.agent g.clk

/-- MAP_FILL_COMPLETE (R217): the line named by the input; a page that is not there yet is a page fault
for Nymesque (R213). -/
def execMapFillComplete (s : State) : Host.Outcome State Fault Refusal :=
  match s.input with
  | .line member line =>
    match s.fillingLine member line with
    | none => .next s
    | some (m, r, k, f) =>
      match s.checkFill m r k with
      | .pass l leaf =>
        if !s.fillReady r f then .next s
        else
        let s' := s.fillLine m r k f l leaf
        .next (s'.retry (s'.threads.filter (Thread.waitsOnLine member line)))
      | .absent page => .next { s with
          faults := if s.faults.contains (m.part, page) then s.faults else s.faults ++ [(m.part, page)] }
      | _ => .next s
  | _ => .next s

/-- A page lies in the partition's memory ranges (R213). -/
def State.pageInRanges (s : State) (part page : Nat) : Bool := inRanges (s.rangesOf part) (page * 65536) 65536

/-- MAP_FILL_FAIL (R217): the fill's translation is declined or meets poison; the line is Invalid again
and the waiting accesses trap with cause 0x08A, poison or an uncorrectable error included (DESIGN CHOICE 105), once a
lane that its trap would end can end (R424). -/
def execMapFillFail (s : State) : Host.Outcome State Fault Refusal :=
  match s.input with
  | .line member line =>
    match s.fillingLine member line with
    | none => .next s
    | some (m, r, k, _) =>
      let fails : Bool := match s.checkFill m r k with
        | .deny _ _ => true
        | .absent page => !s.pageInRanges m.part page
        | _ => false
      let ts := s.threads.filter (Thread.waitsOnLine member line)
      if fails && !ts.any fun t => s.trapHeld t.uid then
        .next ((s.setLine member r.off k none).trapAll ts 0x08A (r.lineAddr k))
      else .next s
  | _ => .next s

end Sys2Proof.Machine
end

