-- ==== Sys2Proof/Machine/Engine.lean ====
section
/-! DEFINITION. What the engines share: which commands are still under way and what their issue orders
them after (R357, R368), their accesses in pieces within one 4 KiB line (R282, R316), arrival barriers
(spec/14_async_copies.md R303 to R307), and the routing of asynchronous causes (R316). -/
namespace Sys2Proof.Machine

open Sys2Proof

/-! ## Commands under way -/

/-- A copy command's path (R353). -/
def CopyKind.path (k : CopyKind) : Path :=
  match k with
  | .put _ => .n
  | .get _ => .n
  | _ => .c

/-- What a thread has under way on a path: its own accesses and the fills that they caused, the commands it issued
(R353, R368). The tiles of a subscription that were issued are complete. -/
def State.liveOf (s : State) (t : Thread) (p : Path) : List Nat :=
  match p with
  | .t => (s.flights.filter fun f => f.owner == t.uid).map (·.id) ++
      (s.fills.filter fun f => f.agent == agentT t.uid).map (·.id)
  | .m => s.cores.flatMap fun c => (c.mq.filter fun q => q.uids.contains t.uid).map (·.id)
  | .s => s.cores.flatMap fun c => (c.sq.filter fun q => q.uids.contains t.uid).map (·.id)
  | .i => []
  | p => (s.copies.filter fun q => q.uid == t.uid && q.kind.path == p).map (·.id)

/-- What the commands that threads issue on a path wait for (R368). -/
def fencedAll (ts : List Thread) (p : Path) : List Nat := ts.flatMap fun t => t.fenced p

/-- What happens before the accesses of a command that threads issue on a path. -/
def State.beforeCommand (s : State) (ts : List Thread) (p : Path) : Clock :=
  let known (c : Clock) (t : Thread) : Clock :=
    match s.thread? t.uid with
    | none => c
    | some x => Clock.join c (Clock.join x.engClk (pathClock x.fenceClk p))
  ts.foldl known []

/-- The same with the command's own accesses. -/
def State.engineClock (s : State) (ts : List Thread) (p : Path) (i : Nat) : Clock :=
  Clock.raise (s.beforeCommand ts p) (agentC i) 1

/-- A command counts as issued by each of some threads (R353). -/
def State.noteIssued (s : State) (ts : List Thread) (p : Path) (clk : Clock) : State :=
  { s with threads := updateIf s.threads (fun x => ts.any fun t => t.uid == x.uid) fun x =>
      { x with issued := joinPath x.issued p clk } }

/-- What the end of a command tells a thread: one that issued it, and one whose fences hold accesses for it, follow
all that the command followed in its queue (R355, R368). -/
def Thread.hears (t : Thread) (id : Nat) (mine : Bool) (p : Path) (c : Clock) : Thread :=
  let held := (t.fenceIds.filter fun f => f.2.contains id).map (·.1)
  { t with
    issued := if mine then joinPath t.issued p c else t.issued
    fenceClk := held.foldl (fun l y => joinPath l y c) t.fenceClk
    clk := if held.contains .t then Clock.join t.clk c else t.clk }

/-- A command of a crew and member ends with all that happens before its last access and those of its own: the
threads that issued it, its crew, its member, and the commands and subscriptions that are ordered after it have that
behind them (R355, R359, R365, R368). -/
def State.endsCommand (s : State) (id crew member : Nat) (uids : List Nat) (p : Path) (c : Clock) : State :=
  let s : State := { s with
    threads := s.threads.map fun t => t.hears id (uids.contains t.uid) p c
    copies := updateIf s.copies (fun q => q.after.contains id) fun q => { q with clk := Clock.join q.clk c }
    subs := updateIf s.subs (fun q => q.after.contains id) fun q => { q with clk := Clock.join q.clk c }
    cores := s.cores.map fun k => { k with
      mq := updateIf k.mq (fun q => q.after.contains id) fun q => { q with clk := Clock.join q.clk c }
      sq := updateIf k.sq (fun q => q.after.contains id) fun q => { q with clk := Clock.join q.clk c } } }
  let s := s.modCrew crew fun x => { x with did := Clock.join x.did c }
  s.modMember member fun m => { m with did := Clock.join m.did c }

/-! ## Accesses in pieces -/

/-- An access that lies within one 4 KiB line. -/
structure Piece where
  addr : DWord
  size : Nat
  write : Bool
  deriving DecidableEq, Repr

/-- Cuts an extent at 4 KiB lines, with fuel for each line it touches. -/
def cut (write : Bool) (fuel : Nat) (addr : DWord) (n : Nat) : List Piece :=
  match fuel with
  | 0 => []
  | fuel + 1 =>
    if n = 0 then []
    else
      let k := Nat.min n (4096 - addr.toNat % 4096)
      ⟨addr, k, write⟩ :: cut write fuel (addr + BitVec.ofNat 64 k) (n - k)

/-- The pieces of an extent. -/
def piecesOf (write : Bool) (addr : DWord) (n : Nat) : List Piece := cut write (n / 4096 + 2) addr n

/-- A page that is not there: Nymesque declines it outside the partition's ranges (R213). -/
def State.declined (s : State) (part : Nat) (addr : DWord) (c : Check) : Check :=
  match c with
  | .absent page => if s.pageInRanges part page then .absent page else .deny 0x085 addr
  | c => c

/-- The check of an access to a line of a mapped region (R217): a whole-line write needs no fill; a fill
that fails fails the access with cause 0x08A. -/
def State.checkLine (s : State) (o : Member) (r : Region) (off : Nat) (p : Piece) : Check :=
  let k := r.lineOf off
  let failed : Bool := match s.declined o.part 0 (s.checkFill o r k) with
    | .deny _ _ => true
    | _ => false
  match assoc r.lines k with
  | none =>
    if p.write && p.size == 4096 then s.passScratch ⟨o.id + 1, off⟩ p.size p.addr
    else if failed then .deny 0x08A (r.lineAddr k) else .fill o.id k r.off
  | some (.filling _) => if failed then .deny 0x08A (r.lineAddr k) else .hold
  | some _ => s.passScratch ⟨o.id + 1, off⟩ p.size p.addr

/-- The check of an engine's access for a member (R202, R213, R214, R217, R404, R432). -/
def State.checkPiece (s : State) (member : Nat) (p : Piece) : Check :=
  match s.member? member with
  | none => .deny 0x082 p.addr
  | some m =>
    let n : Need := ⟨p.addr, p.size, p.write, false⟩
    match s.target m (p.addr + BitVec.ofNat 64 (p.size - 1)) 1, s.target m p.addr 1 with
    | .error c, _ => .deny c p.addr
    | _, .error c => .deny c p.addr
    | _, .ok (.shared va) => s.declined m.part p.addr (s.checkShared m.part n va)
    | _, .ok (.scratch o off) =>
      if s.slotBarred m o off p.size then .deny 0x092 p.addr
      else if o.divertAt off = some .restoring then .hold
      else match o.regionAt off with
        | none => s.passScratch ⟨o.id + 1, off⟩ p.size p.addr
        | some r =>
          if p.write && !r.writable then .deny 0x08D p.addr
          else if o.divertAt off = some .diverting then
            s.declined o.part p.addr (s.checkShared o.part n (r.base.toNat + (off - r.off)))
          else s.checkLine o r off p

/-- How the checks of some pieces end: they pass, one waits, or one fails first. -/
inductive RowCheck where
  | ok
  | wait (c : Check)
  | fail (cause : Nat) (addr : DWord)
  deriving DecidableEq, Repr

/-- Checks pieces in order. -/
def State.checkPieces (s : State) (member : Nat) (ps : List Piece) : RowCheck :=
  match ps with
  | [] => .ok
  | p :: rest =>
    match s.checkPiece member p with
    | .pass _ _ => State.checkPieces s member rest
    | .deny c a => .fail c a
    | c => .wait c

/-- How far a command comes: it waits first, or some rows pass, all or up to a failure. -/
inductive Reach where
  | wait (c : Check)
  | rows (n : Nat) (fail : Option (Nat × DWord))
  deriving DecidableEq, Repr

/-- Checks rows in order; `n` have passed. -/
def State.reach (s : State) (member : Nat) (rows : List (List Piece)) (n : Nat) : Reach :=
  match rows with
  | [] => .rows n none
  | r :: rest =>
    match s.checkPieces member r with
    | .ok => State.reach s member rest (n + 1)
    | .wait c => .wait c
    | .fail c a => .rows n (some (c, a))

/-- The address lies in the cluster aperture (R202). -/
def inCluster (addr : DWord) : Bool := decide ((addr - clusterBase).toNat < 2 ^ 26)
/-- The cluster position of an address, 0 for others. -/
def clusterPos (addr : DWord) : Nat := if inCluster addr then (addr - clusterBase).toNat / 2 ^ 24 else 0
/-- The cause of a row whose peer is gone or too small: the row is discarded (R302, R434, R473). -/
def discards (cause : Nat) : Bool := cause == 0x083 || cause == 0x084

/-- How far the rows of a matrix command come: which of them move, the address and bytes of each that does,
the first that is discarded with its cluster position and the rows and bytes that reached it before (R302),
and the failure that ends the command. -/
structure Haul where
  keep : List Bool
  sent : List (DWord × Nat)
  lost : Option (Nat × DWord × Nat × Nat)
  fail : Option (Nat × DWord)
  deriving DecidableEq, Repr

/-- The address of a row. -/
def rowAddr (ps : List Piece) : DWord := (ps.head?.map (·.addr)).getD 0
/-- The bytes of a row. -/
def rowSize (ps : List Piece) : Nat := (ps.map (·.size)).foldl (· + ·) 0

/-- What of some rows went to the cluster position of an address. -/
def sentTo (sent : List (DWord × Nat)) (addr : DWord) : List (DWord × Nat) :=
  sent.filter fun x => inCluster x.1 && clusterPos x.1 == clusterPos addr

/-- The bytes of some rows. -/
def sentBytes (sent : List (DWord × Nat)) : Nat := (sent.map (·.2)).foldl (· + ·) 0

/-- Checks the rows of a matrix command in order, each before it is sent (R282, R302). -/
def State.haul (s : State) (member : Nat) (rows : List (List Piece)) (h : Haul) : Except Check Haul :=
  match rows with
  | [] => .ok h
  | r :: rest =>
    let addr := rowAddr r
    match s.checkPieces member r with
    | .ok => State.haul s member rest { h with keep := h.keep ++ [true], sent := h.sent ++ [(addr, rowSize r)] }
    | .wait c => .error c
    | .fail cause x =>
      if discards cause then
        let before := sentTo h.sent addr
        State.haul s member rest { h with
          keep := h.keep ++ [false]
          lost := h.lost.or (some (clusterPos addr, addr, before.length, sentBytes before)) }
      else .ok { h with fail := some (cause, x) }

/-- Those of some rows that move. -/
def picked {α : Type} (keep : List Bool) (xs : List α) : List α :=
  (keep.zip xs).filterMap fun x => if x.1 then some x.2 else none

/-- A page fault waits for Nymesque (R213). -/
def State.noteFault (s : State) (part page : Nat) : State :=
  { s with faults := if s.faults.contains (part, page) then s.faults else s.faults ++ [(part, page)] }

/-- Who makes an engine's accesses: the command's agent and clock, its member, core and path. -/
structure Actor where
  agent : Nat
  clk : Clock
  member : Nat
  core : Nat
  path : Path
  deriving DecidableEq, Repr

/-- An access of an engine waits: a fill starts on its path, or Nymesque is told of a page (R217, R316,
R353). -/
def State.waitOn (s : State) (part : Nat) (a : Actor) (c : Check) : State :=
  match c with
  | .fill o line region => s.startFill o region line ⟨0, a.agent, a.clk, a.core, 0xFFFF, a.path⟩
  | .absent page => s.noteFault part page
  | _ => s

/-- An access that a thread makes at once waits the same way. -/
def State.waitOnFor (s : State) (part : Nat) (t : Thread) (c : Check) : State :=
  match c with
  | .fill o line region => s.startFillFor t o region line
  | .absent page => s.noteFault part page
  | _ => s

/-- A translated access of an engine, which is a piece of a row within a line of 4 KiB: heat, sampler and the account's
bytes (R210, R215, R476) (DESIGN CHOICE 93). -/
def State.noteEngine (s : State) (a : Actor) (p : Piece) (l : Loc) (leaf : Option Nat) : State :=
  match leaf, s.member? a.member with
  | some e, some m =>
    ((s.raiseHeat e p.write).sample m.part
      ⟨a.core, 0xFFFF, if p.write then 7 else 6, p.size, a.path.number, m.id⟩ p.addr l.off).charge
      m.acct { Usage.zero with mem := p.size }
  | _, _ => s

/-- An engine's piece that goes through a diverted region: what comes before every access through it, and the state in
which it counts in the histories of the lines (R370, R371). -/
def State.pieceVia (s : State) (a : Actor) (p : Piece) (l : Loc) : State × Clock :=
  match (s.member? a.member).bind fun m => s.viaOf m p.addr with
  | none => (s, a.clk)
  | some (o, r, off) =>
    let clk := Clock.join a.clk r.clk
    ((s.crossOver a.agent clk p.write ⟨o.id + 1, off⟩ l p.size).noteAway o.id r.off a.agent [Clock.get clk a.agent], clk)

/-- Reads pieces whose checks pass. -/
def State.readPieces (s : State) (a : Actor) (ps : List Piece) : State × List Byte :=
  match ps with
  | [] => (s, [])
  | p :: rest =>
    match s.checkPiece a.member p with
    | .pass l leaf =>
      let (s, clk) := (s.noteEngine a p l leaf).pieceVia a p l
      let (s, bs) := s.readFor a.agent clk 0 l p.size
      let (s, more) := State.readPieces s a rest
      (s, bs ++ more)
    | _ => State.readPieces s a rest

/-- Writes pieces whose checks pass. -/
def State.writePieces (s : State) (a : Actor) (ps : List Piece) (bs : List Byte) : State :=
  match ps with
  | [] => s
  | p :: rest =>
    let s := match s.checkPiece a.member p with
      | .pass l leaf =>
        let (s, clk) := (s.noteEngine a p l leaf).pieceVia a p l
        s.writeFor a.agent clk l (bs.take p.size)
      | _ => s
    State.writePieces s a rest (bs.drop p.size)

/-! ## Arrival barriers (R303 to R307) -/

/-- An arrival barrier (R303). -/
structure Barrier where
  expected : Nat
  arrived : Nat
  status : Word
  progress : Nat
  deriving DecidableEq, Repr

/-- The barrier in 16 bytes (R303), each field as it stands there, also after a store that does not race (DESIGN
CHOICE 98). -/
def Barrier.ofBytes (bs : List Byte) : Barrier :=
  ⟨sliceNat bs 0 4, sliceNat bs 4 4, leWord (slice bs 8 4), sliceNat bs 12 4⟩
/-- The 16 bytes of a barrier. -/
def Barrier.bytes (b : Barrier) : List Byte :=
  leBytes 4 b.expected ++ leBytes 4 b.arrived ++ leBytes 4 b.status.toNat ++ leBytes 4 b.progress
/-- The phase bit. -/
def Barrier.phase (b : Barrier) : Bool := b.status.getLsbD 31
/-- The flip rule applies (R304). -/
def Barrier.flips (b : Barrier) : Bool := decide (0 < b.expected) && decide (b.expected ≤ b.arrived)
/-- The flip rule (R304). -/
def Barrier.flip (b : Barrier) : Barrier :=
  if b.flips then ⟨0, b.arrived - b.expected, b.status ^^^ 0x80000000, b.progress⟩ else b
/-- The barrier after BINIT (R323). -/
def Barrier.init (expected : Word) : Barrier := ⟨expected.toNat, 0, 0, 0⟩
/-- An arrival of some bytes, with the bytes moved and the cause of a failure (R304, R306). -/
def Barrier.arrive (b : Barrier) (bytes moved : Nat) (error : Option Nat) : Barrier :=
  let status : Word := match error with
    | none => b.status
    | some c => (b.status &&& 0x80000000) ||| 0x40000000 ||| BitVec.ofNat 32 (c % 512)
  ⟨b.expected, (b.arrived + bytes) % 2 ^ 32, status, (b.progress + moved) % 2 ^ 32⟩

/-- The history of a byte after an update of its barrier, an access of 16 bytes as an atomic: it leaves contents
that a race has left unbounded as they are (R307, R372). -/
def Shadow.updated (h : Shadow) (agent : Nat) (clk : Clock) : Shadow :=
  { h.wrote agent clk 16 with raced := h.raced || (h.wrote agent clk 16).raced }

/-- Notes an update of the bytes of a barrier. -/
def State.noteUpdate (s : State) (agent : Nat) (clk : Clock) (l : Loc) (n : Nat) : State :=
  match n with
  | 0 => s
  | n + 1 =>
    let here := l.plus n
    let h := (s.shadowOf here).updated agent clk
    State.noteUpdate { s with shadow := upsert s.shadow (fun x => x.loc == here) h } agent clk l n

/-- The barrier at a location. -/
def State.barrierAt (s : State) (l : Loc) : Barrier := Barrier.ofBytes (s.bytesAt l 16)

/-- The clocks of the barrier at a location. -/
def State.barClock (s : State) (l : Loc) : BarClock :=
  (s.barClks.find? fun x => x.loc == l).getD ⟨l, [], []⟩
/-- Sets the clocks of a barrier. -/
def State.setBarClock (s : State) (c : BarClock) : State :=
  { s with barClks := upsert s.barClks (fun x => x.loc == c.loc) c }

/-- One indivisible update of a barrier by an agent. -/
def State.putBarrier (s : State) (agent : Nat) (clk : Clock) (l : Loc) (b : Barrier) : State :=
  (s.noteUpdate agent clk l 16).putAt l b.bytes

/-- BINIT's update of a barrier by an agent, which sets all its 16 bytes: one that races with nothing bounds
them again (R323, R372). -/
def State.initBarrier (s : State) (agent : Nat) (clk : Clock) (l : Loc) (b : Barrier) : State :=
  (s.noteWrite agent clk 16 l 16).putAt l b.bytes

/-- The arrivals that a flip counts, oldest first, up to a number of bytes: what they carry together, and
those left for the next flip; one that lies across the boundary is in both (R304, R305) (DEDUCED 57). -/
def countArrivals (l : List (Nat × Clock)) (n : Nat) : Clock × List (Nat × Clock) :=
  match l with
  | [] => ([], [])
  | (b, c) :: rest =>
    if b ≤ n then
      let (x, left) := countArrivals rest (n - b)
      (Clock.join x c, left)
    else if n = 0 then ([], (b, c) :: rest)
    else (c, (b - n, c) :: rest)

/-- The flip rule after an update: a flip publishes what the arrivals it counts carry, and wakes the core (R83,
R304, R305). -/
def State.flipBarrier (s : State) (agent : Nat) (clk : Clock) (l : Loc) (b : Barrier)
    (acc : List (Nat × Clock)) : State :=
  let c := s.barClock l
  let s := s.putBarrier agent clk l b.flip
  if b.flips then
    let (flipped, left) := countArrivals acc b.expected
    (s.setBarClock ⟨l, left, flipped⟩).wakeMember (l.space - 1)
  else s.setBarClock { c with acc := acc }

/-- An arrival is applied at its barrier (R304, R306). -/
def State.arriveAt (s : State) (agent : Nat) (clk : Clock) (l : Loc) (bytes moved : Nat)
    (error : Option Nat) : State :=
  s.flipBarrier agent clk l ((s.barrierAt l).arrive bytes moved error)
    ((s.barClock l).acc ++ [(bytes, clk)])

/-- A barrier lies in the scratchpad of its owner, outside every mapped region (R303, R323). -/
def Member.barrierOk (m : Member) (off : Nat) : Bool :=
  decide (off + 16 ≤ m.scratchBytes) && (m.regionAt off).isNone

/-- A barrier word (R281): whether it is valid, and the barrier's offset when the command arrives. -/
def barrierWord (w : Word) : Bool × Option Nat :=
  let off := (w.extractLsb' 0 24).toNat
  let arrive := w.getLsbD 31
  (w.extractLsb' 24 7 == 0 && (if arrive then off % 16 == 0 else off == 0),
    if arrive then some off else none)

/-- An arrival sets out to a barrier (R300). -/
def State.sendArrival (s : State) (cmd crew : Nat) (l : Loc) (bytes moved : Nat) (error : Option Nat)
    (clk : Clock) : State :=
  { s with
    nextId := s.nextId + 1
    arrivals := s.arrivals ++ [⟨s.nextId, cmd, crew, l, bytes, moved, error, clk⟩] }

/-- BARRIER_ARRIVAL (R304): the arrival named by the input is applied, after the earlier ones of its
command; one at a barrier that is being restored waits (R438), and none reaches a member that has gone
(R434). -/
def execBarrierArrival (s : State) : Host.Outcome State Fault Refusal :=
  match s.input with
  | .id i =>
    match s.arrivals.find? fun a => a.id == i with
    | none => .next s
    | some a =>
      let earlier := s.arrivals.any fun b => b.cmd == a.cmd && b.loc == a.loc && decide (b.id < a.id)
      if earlier || !s.homeOpen a.loc then .next s
      else
        let s := { s with arrivals := s.arrivals.filter fun b => b.id != i }
        .next (if s.homeGone a.loc then s
          else s.arriveAt (agentC a.cmd) a.clk a.loc a.bytes a.moved a.error)
  | _ => .next s

/-! ## Asynchronous causes (R316, R419) -/

/-- The crew of the thread that issued a command of a crew: the bent of a lane that has ended in one, else the crew
that the command counts for (R316) (DEDUCED 81). -/
def State.issuerCrew (s : State) (crew uid : Nat) : Nat := ((s.thread? uid).map (·.crew)).getD crew

/-- Routes an asynchronous cause: the issuing thread, else the lowest `%tid` of its crew, else that of
the member, else the end status (R316). -/
def State.deliver (s : State) (member crew : Nat) (uid : Nat) (p : Pending) : State :=
  match s.threads.find? fun t => t.uid == uid && t.lives with
  | some t => s.postCause t.uid p
  | none =>
    match minBy ((s.crewThreads (s.issuerCrew crew uid)).filter Thread.lives) (·.tid) with
    | some t => s.postCause t.uid p
    | none => s.postLowest member ((s.memberThreads member).filter Thread.lives) p

end Sys2Proof.Machine
end

