-- ==== Sys2Proof/Machine/Order.lean ====
section
/-! DEFINITION. Dispatch order and fit (spec/03_placed.md R65 to R67, R72, R73): the partitions' cores, what
resident members hold of a core, deficits, which entry comes first, and which is pinned. -/
namespace Sys2Proof.Machine

open Sys2Proof

/-! ## What a configuration leaves to its default -/

/-- The yard area in units of 2 MiB (R53). -/
def areaUnits (c : PartCfg) : Nat := c.yardArea.getD Config.yardUnits
/-- The age limit (R67). -/
def skipLimitOf (c : PartCfg) : Nat := c.ageLimit.getD Config.skipLimit
/-- The pre-emption margin in units of U (R73). -/
def marginOf (c : PartCfg) : Nat := c.margin.getD Config.preemptMargin
/-- The exponent j of the heat sweep (R211). -/
def sweepExpOf (c : PartCfg) : Nat := c.sweepJ.getD Config.sweepExp

/-! ## The peer list (R44) -/

/-- A peer list entry in 32 bytes (R44). -/
def peerOf (bs : List Byte) : Peer where
  addr := BitVec.ofNat 128 (sliceNat bs 0 16)
  ep := leWord (slice bs 16 4)
  jobid := leWord (slice bs 20 4)
  valid := (bs.getD 24 0).getLsbD 0
  port := sliceNat bs 25 1
  reserved := (bs.getD 24 0).extractLsb' 1 7 != 0 || sliceNat bs 26 6 != 0

/-- The peer list of a configuration; an entry that it does not set is not there (R44). -/
def peersOf (c : PartCfg) : List Peer :=
  (List.range (c.peerBytes.length / 32)).map fun i => peerOf (slice c.peerBytes (32 * i) 32)

/-! ## Cores of a partition -/

/-- A configuration names a core (R43). -/
def ownsCore (c : PartCfg) (core : Nat) : Bool :=
  if isM core then c.clusters.getLsbD (core / 4) else c.scores.getLsbD (core - Config.mCores)

/-- The core class of a launch record. -/
def LaunchRec.coreClass (d : LaunchRec) : CoreClass := if d.cls = 1 then .score else .mcore

/-- A partition's cores of a class. -/
def State.coresOf (s : State) (part : Nat) (cls : CoreClass) : List Nat :=
  match s.part? part with
  | none => []
  | some p => (List.range Config.cores).filter fun c => classOf c == cls && ownsCore p.cfg c

/-- Those on a die. -/
def State.coresOn (s : State) (part : Nat) (cls : CoreClass) (die : Nat) : List Nat :=
  (s.coresOf part cls).filter fun c => dieOf c == die

/-! ## What members hold of a core (R66) -/

/-- The amounts a record asks for (R66). -/
def LaunchRec.need (d : LaunchRec) : Totals :=
  ⟨d.width + d.spslots, (d.width + d.spslots) * d.regs * 16, d.scratch, d.acc, d.tiles, d.rings,
    d.cqcrew * (1 + d.spcrews)⟩

/-- No resource. -/
def Totals.zero : Totals := ⟨0, 0, 0, 0, 0, 0, 0⟩
/-- Amounts together. -/
def Totals.plus (a b : Totals) : Totals :=
  ⟨a.slots + b.slots, a.regs + b.regs, a.units + b.units, a.accs + b.accs, a.tiles + b.tiles,
    a.rings + b.rings, a.copies + b.copies⟩
/-- Amounts fit into what is there. -/
def Totals.within (a b : Totals) : Bool :=
  decide (a.slots ≤ b.slots) && decide (a.regs ≤ b.regs) && decide (a.units ≤ b.units) &&
    decide (a.accs ≤ b.accs) && decide (a.tiles ≤ b.tiles) && decide (a.rings ≤ b.rings) &&
    decide (a.copies ≤ b.copies)

/-- A member is resident with its slots: Running, or ended and its slots not released yet; one that was
cancelled while Suspended had given them back (R74, R434, R471). -/
def Member.resident (m : Member) : Bool :=
  m.onCore && decide (m.retire < 6) && match m.st with
  | .running => true
  | .done => true
  | .cancelled => m.divert.isNone
  | _ => false

/-- Scratchpad units that a member still has (R471 step 5). -/
def Member.unitsLeft (m : Member) : Nat := m.desc.scratch - m.freed.length

/-- What a member holds of its core: everything while resident, less what its retirement has released;
while away the copy entries that its commands still occupy (R429, R471). -/
def State.heldBy (s : State) (m : Member) : Totals :=
  let busy := (s.copies.filter fun c => c.member == m.id && c.crew != 0).length
  if m.resident then
    (if m.quiesced then { m.desc.need with units := m.unitsLeft, accs := 0, tiles := 0, rings := 0 }
    else m.desc.need)
  else if m.onCore then { Totals.zero with copies := busy }
  else Totals.zero

/-- What the members of a core hold together, one of them left out. -/
def State.heldOn (s : State) (core : Nat) (but : Nat) : Totals :=
  ((s.members.filter fun m => m.core == core && m.id != but).map s.heldBy).foldl Totals.plus Totals.zero

/-- The thread slots of a core that the pools of its resident members do not hold, lowest first (R121). -/
def State.spareTids (s : State) (core : Nat) : List Nat :=
  let held := (s.members.filter fun m => m.core == core && m.resident).flatMap (·.tids)
  (List.range (totals (classOf core)).slots).filter fun t => !held.contains t

/-- A resident member of the core uses its array (R66). -/
def State.arrayHeld (s : State) (core : Nat) (but : Nat) : Bool :=
  s.members.any fun m => m.core == core && m.id != but && m.resident && !m.quiesced && m.desc.flags.testBit 0

/-! ## Route tags (R382) -/

/-- The tags a job holds on a die. -/
def State.jobTags (s : State) (part die : Nat) (job : DWord) : List Nat :=
  ((s.tagHolds.find? fun h => h.part == part && h.die == die && h.job == job).map (·.tags)).getD []

/-- The tags a partition's jobs hold on a die. -/
def State.usedTags (s : State) (part die : Nat) : List Nat :=
  (s.tagHolds.filter fun h => h.part == part && h.die == die).flatMap (·.tags)

/-- The partition's tags on a die that no job holds, lowest first. -/
def State.spareTags (s : State) (part die : Nat) : List Nat :=
  (List.range 8).filter fun t => !(s.usedTags part die).contains t

/-- A member's job has, or can take, the tags it declares (R66). -/
def State.tagsFit (s : State) (m : Member) (die : Nat) : Bool :=
  decide (m.desc.tags ≤ (s.jobTags m.part die m.job).length + (s.spareTags m.part die).length)

/-- The job of a member takes the further tags it needs on a die (R382). -/
def State.takeTags (s : State) (m : Member) (die : Nat) : State :=
  let mine := s.jobTags m.part die m.job
  let all := mine ++ (s.spareTags m.part die).take (m.desc.tags - mine.length)
  let hold : TagHold := ⟨m.part, die, m.job, all⟩
  if m.desc.tags = 0 then s
  else { s with
    tagHolds := upsert s.tagHolds (fun h => h.part == m.part && h.die == die && h.job == m.job) hold }

/-- A member keeps its job's tags on a die. -/
def Member.keepsTags (m : Member) (h : TagHold) : Bool :=
  m.onCore && m.part == h.part && m.job == h.job && dieOf m.core == h.die

/-- Tags of jobs without a member on the die are free again (R382); the tree keeps a job's barriers, with
what they have counted and their numbers, while the job has any member (R383, R385) (DEDUCED 45). -/
def State.freeTags (s : State) : State :=
  { s with
    tagHolds := s.tagHolds.filter fun h => s.members.any fun m => m.keepsTags h
    tags := s.tags.filter fun b => s.members.any fun m => m.part == b.part && m.job == b.job }

/-! ## Entries and their order (R65, R72, R73) -/

/-- The last deficit of an account as a fraction (R72) (DEDUCED 37). -/
def State.deficit (s : State) (acct : Nat) : Int × Nat :=
  match s.acct? acct with
  | none => (0, 1)
  | some a => (a.deficit, Nat.max a.deficitDen 1)

/-- The deficit of x exceeds that of y by more than a margin in units of U (1/2048 here). -/
def State.deficitAbove (s : State) (x y margin : Nat) : Bool :=
  let a := s.deficit x
  let b := s.deficit y
  decide ((margin : Int) * 2048 * a.2 * b.2 < a.1 * b.2 - b.1 * a.2)

/-- A member is an entry in dispatch order: Ready, Parked, or a resume (R65, R75) (DEDUCED 30). -/
def Member.isEntry (m : Member) : Bool :=
  match m.st with
  | .ready => true
  | .parked => true
  | .suspended => m.stop == .none
  | _ => false

/-- Two members of one section, partition and class. -/
def Member.samePool (x y : Member) : Bool :=
  x.sect == y.sect && x.part == y.part && x.desc.coreClass == y.desc.coreClass

/-- Entry x comes before entry y (R65): pinned, priority class, deficit, age, and where all these are equal
the lower member id (DESIGN CHOICE 62). -/
def State.before (s : State) (x y : Member) : Bool :=
  if x.pinned != y.pinned then x.pinned
  else if x.prio ≠ y.prio then decide (y.prio < x.prio)
  else if s.deficitAbove x.acct y.acct 0 then true
  else if s.deficitAbove y.acct x.acct 0 then false
  else if x.since ≠ y.since then decide (x.since < y.since)
  else decide (x.id < y.id)

/-- Inserts an entry into a list in dispatch order. -/
def State.insertEntry (s : State) (x : Member) (l : List Member) : List Member :=
  match l with
  | [] => [x]
  | y :: rest => if s.before x y then x :: y :: rest else y :: State.insertEntry s x rest

/-- The entries of a section for a partition and class in dispatch order (R65). -/
def State.pool (s : State) (sect part : Nat) (cls : CoreClass) : List Member :=
  (s.members.filter fun m => m.isEntry && m.sect == sect && m.part == part && m.desc.coreClass == cls).foldl
    (fun l m => s.insertEntry m l) []

/-- Entry x outranks member y (R73). -/
def State.outranks (s : State) (x y : Member) : Bool :=
  x.acct != y.acct && (decide (y.prio < x.prio) ||
    (x.prio == y.prio && s.deficitAbove x.acct y.acct (((s.part? x.part).map fun p => marginOf p.cfg).getD Config.preemptMargin)))

/-! ## Pins and heads (R67, R74, R78) -/

/-- The age limit of a partition (R67). -/
def State.ageLimit (s : State) (part : Nat) : Nat := ((s.part? part).map fun p => skipLimitOf p.cfg).getD Config.skipLimit

/-- A Ready or Parked entry: one that can move between sections (R75, R78). -/
def Member.isWaiting (m : Member) : Bool := m.st == .ready || m.st == .parked

/-- An entry of the member's pool is pinned. -/
def State.poolPinned (s : State) (m : Member) : Bool :=
  s.members.any fun x => x.pinned && x.isEntry && x.samePool m

/-- An entry whose skip count has reached the limit. -/
def State.ripe (s : State) (m : Member) : Bool := m.isEntry && decide (s.ageLimit m.part ≤ m.skips)

/-- The entry that is pinned next: of the ripe ones of a pool without a pinned entry (R67), the first in dispatch order
(DESIGN CHOICE 102). -/
def State.pinsNow (s : State) (m : Member) : Bool :=
  s.ripe m && !s.poolPinned m && !(s.members.any fun x => s.ripe x && x.samePool m && x.id != m.id && s.before x m)

/-- An entry is first in its dispatch order. -/
def State.isFirst (s : State) (m : Member) : Bool :=
  m.isEntry && !(s.members.any fun x => x.isEntry && x.samePool m && x.id != m.id && s.before x m)

/-- Pins follow the skip counts. -/
def State.settlePins (s : State) : State :=
  { s with members := s.members.map fun m =>
      { m with pinned := (m.pinned && m.isEntry) || s.pinsNow m } }

/-- Since when each first entry is first. -/
def State.settleFirsts (s : State) : State :=
  { s with members := s.members.map fun m =>
      { m with firstSince := if s.isFirst m then some (m.firstSince.getD s.clock) else none } }

/-- The order settles after an entry has come, gone or changed. -/
def State.settleOrder (s : State) : State := s.settlePins.settleFirsts

/-! ## The fit test (R66) -/

/-- A pinned entry other than this one holds a core back (R67). -/
def State.draining (s : State) (m : Member) (core : Nat) : Bool :=
  s.members.any fun x => x.pinned && x.isEntry && x.id != m.id && x.part == m.part &&
    x.desc.coreClass == m.desc.coreClass && x.sect == dieOf core

/-- A member's resources fit a core: a resume holds its copy entries, crew entries and tags already. -/
def State.roomFor (s : State) (m : Member) (core : Nat) : Bool :=
  ((m.desc.need).plus (s.heldOn core m.id)).within (totals (classOf core)) &&
    (!m.desc.flags.testBit 0 || !s.arrayHeld core m.id) && s.tagsFit m (dieOf core)

/-- A core fits a member or phase (R66); a resume fits on its own core alone (R75) (DEDUCED 30; DEDUCED 33). -/
def State.fits (s : State) (m : Member) (core : Nat) : Bool :=
  (s.coresOf m.part m.desc.coreClass).contains core && !s.draining m core && s.roomFor m core &&
    (if m.st = .suspended then core == m.core else decide (0 < s.freeCrews core))

/-- Allotted thread slots of a core. -/
def State.allotted (s : State) (core : Nat) : Nat := (s.heldOn core 0).slots

/-- The fitting core of a section with the fewest allotted slots, the lowest number among equals (R66). -/
def State.choose (s : State) (m : Member) (sect : Nat) : Option Nat :=
  minBy ((s.coresOn m.part m.desc.coreClass sect).filter (s.fits m)) s.allotted

/-- The next fitting entry among some, with its core and the entries passed over (R66, R67). -/
def State.pick (s : State) (sect : Nat) (passed l : List Member) : Option (Member × Nat × List Member) :=
  match l with
  | [] => none
  | m :: rest =>
    match s.choose m sect with
    | some c => some (m, c, passed)
    | none => State.pick s sect (passed ++ [m]) rest

/-- The skip counts of the entries passed over rise, up to the limit (R67). -/
def State.skip (s : State) (passed : List Member) : State :=
  { s with members := updateIf s.members (fun m => m.isEntry && passed.any fun x => x.id == m.id) fun m =>
      { m with skips := Nat.min (m.skips + 1) (s.ageLimit m.part) } }

end Sys2Proof.Machine
end

