-- ==== Sys2Proof/Machine/Counters.lean ====
section
/-! DEFINITION. Joint counters (spec/03_placed.md R58 to R62): handles, references, decrements, firing and
the registration of gated members. -/
namespace Sys2Proof.Machine

open Sys2Proof

/-- Messages leave the device, in order. -/
def State.send (s : State) (ms : List Msg) : State := { s with nym := { s.nym with out := s.nym.out ++ ms } }

/-- The handle that names no counter. -/
def noHandle : Word := 0xFFFFFFFF

/-- The handle of a counter (R58). -/
def Counter.handle (c : Counter) : Word :=
  field c.gen 25 7 ||| field c.part 20 5 ||| field c.sect 18 2 ||| field c.index 0 18

/-- The live counter of a partition that a handle names (R59). -/
def State.counter? (s : State) (part : Nat) (h : Word) : Option Counter :=
  s.counters.find? fun c => c.part == part && c.handle == h

/-- Changes the counter of a handle. -/
def State.modCounter (s : State) (h : Word) (f : Counter → Counter) : State :=
  { s with counters := updateIf s.counters (fun c => c.handle == h) f }

/-- A job of a partition has a member in some state. -/
def State.jobLives (s : State) (part : Nat) (job : DWord) : Bool :=
  s.members.any fun m => m.part == part && m.job == job

/-- A counter is referenced (R59); a decrement on its way to it keeps it, and so does a YPUT on its way that names
it (DESIGN CHOICE 75). -/
def State.counterHeld (s : State) (c : Counter) : Bool :=
  let h := c.handle
  (c.job.any fun j => s.jobLives c.part j) || !c.gated.isEmpty ||
  (s.members.any fun m => m.part == c.part && (m.desc.done == h || (m.st == .gated && m.desc.gate == h))) ||
  (s.copies.any fun x => x.joint == some h) || (s.decs.any fun d => d.handle == h) ||
  (s.flights.any fun f => match f.op with
    | .yput _ g d _ _ => g == h || d == h
    | _ => false)

/-- Sections free the counters that hold no reference (R59). -/
def State.freeCounters (s : State) : State :=
  { s with counters := s.counters.filter fun c => s.counterHeld c }

/-- Counters of a section. -/
def sectionCounters : Nat := 262144

/-- A new counter in a section, at its lowest free index (DESIGN CHOICE 61), with the next generation of that
index (R58, R59); nothing when the section is full. -/
def State.newCounter (s : State) (part sect value : Nat) (job : Option DWord) : Option (State × Word) :=
  let used := (s.counters.filter fun c => c.sect == sect).map (·.index)
  match lowestFree used sectionCounters with
  | none => none
  | some i =>
    let key := sect * sectionCounters + i
    let gen := match assoc s.counterGens key with
      | none => 0
      | some g => (g + 1) % 127
    let c : Counter := ⟨part, sect, i, gen, value, [], job, []⟩
    some ({ s with counters := s.counters ++ [c], counterGens := assocSet s.counterGens key gen }, c.handle)

/-- A member passes to Ready, after what the counter's decrements carry (R60, R365). -/
def Member.makeReady (m : Member) (now : DWord) (clk : Clock) : Member :=
  { m with st := .ready, since := now, firstSince := none, clk := Clock.join m.clk clk }

/-- The cores that some members have become Ready for wake: the ones that their sections would give them now (R66,
R83) (DEDUCED 78). -/
def State.wakeFor (s : State) (ms : List Member) : State :=
  match ms with
  | [] => s
  | m :: rest => State.wakeFor (((s.choose m m.sect).map s.wakeCore).getD s) rest

inductive DecResult where
  | stale
  | underflow
  | value (v : Nat)
  deriving DecidableEq, Repr

/-- One decrement is applied at its section in one indivisible step; one that fires the counter wakes cores (R60,
R61, R83). -/
def State.applyDec (s : State) (part : Nat) (h : Word) (n : Nat) (clk : Clock) : State × DecResult :=
  match s.counter? part h with
  | none => (s, .stale)
  | some c =>
    if c.value < n then (s, .underflow)
    else
      let v := c.value - n
      let all := Clock.join c.clk clk
      if n ≠ 0 ∧ v = 0 then
        let s := s.modCounter h fun x => { x with value := 0, gated := [], clk := all }
        let waits (m : Member) : Bool := c.gated.contains m.id && m.st == .gated
        let s := { s with members := updateIf s.members waits fun m => m.makeReady s.clock all }
        let s := s.settleOrder
        (s.wakeFor (s.members.filter fun m => c.gated.contains m.id && m.st == .ready), .value 0)
      else (s.modCounter h fun x => { x with value := v, clk := all }, .value v)

/-- An underflow enters its section's log, which keeps the newest 64 (R61). -/
def State.logUnderflow (s : State) (sect : Nat) (h : Word) (source : Nat) (job : DWord) : State :=
  let mine := s.underflows.filter fun u => u.sect == sect
  let rest := s.underflows.filter fun u => u.sect != sect
  let all := mine ++ [⟨sect, h, source, job, s.clock⟩]
  { s with underflows := rest ++ all.drop (all.length - 64) }

/-- The section of a handle (R58). -/
def handleSect (h : Word) : Nat := (h.extractLsb' 18 2).toNat

/-- The decrement of a copy sets out. -/
def State.sendDec (s : State) (cmd member part : Nat) (h : Word) (job : DWord) (clk : Clock) : State :=
  { s with nextId := s.nextId + 1, decs := s.decs ++ [⟨s.nextId, cmd, member, part, h, job, clk⟩] }

/-- The decrement of a copy arrives at its section, after the arrivals of its command (R60, R300, R365). -/
def State.landDec (s : State) (d : Decrement) : State :=
  if (s.arrivals.any fun a => a.cmd == d.cmd) || !s.settled d.clk then s
  else
    let s := { s with decs := s.decs.filter fun x => x.id != d.id }
    match s.applyDec d.part d.handle 1 d.clk with
    | (s, .underflow) => (s.logUnderflow (handleSect d.handle) d.handle 2 d.job).freeCounters
    | (s, _) => s.freeCounters

/-- The decrement of a JDEC arrives at its section: its reply, or its trap (R392). -/
def State.landJdec (s : State) (f : Flight) (part : Nat) (h : Word) (n : Nat) : State :=
  if f.applied || !s.clear f then s
  else match s.applyDec part h n f.clk with
    | (s, .stale) => s.modFlight f.id fun g => { g with applied := true, trap := some (0x141, h.setWidth 64) }
    | (s, .underflow) =>
      s.modFlight f.id fun g => { g with applied := true, trap := some (0x140, h.setWidth 64) }
    | (s, .value v) =>
      (s.modFlight f.id fun g => { g with applied := true, reply := [BitVec.ofNat 32 v] }).freeCounters

/-- JOINT_DECREMENT (R60): the decrement named by the input arrives at its owning section. -/
def execJointDecrement (s : State) : Host.Outcome State Fault Refusal :=
  match s.input with
  | .id i =>
    match s.decs.find? fun d => d.id == i, s.flight? i with
    | some d, _ => .next (s.landDec d)
    | none, some f =>
      match f.op, s.member? f.member with
      | .jdec h n, some m => .next (s.landJdec f m.part h n)
      | _, _ => .next s
    | none, none => .next s
  | _ => .next s

/-- A Gated member registers at its counter's section (R62): it joins the counter's list, or passes to
Ready when the value is zero. One whose posting found no index for a new counter passes too (DEDUCED 41). -/
def State.register (s : State) (m : Member) : State :=
  let s := s.modMember m.id fun x => { x with registered := true }
  if m.desc.gate = noHandle then (s.modMember m.id fun x => x.makeReady s.clock []).settleOrder
  else match s.counter? m.part m.desc.gate with
    | none => s
    | some c =>
      if c.value = 0 then (s.modMember m.id fun x => x.makeReady s.clock c.clk).settleOrder.freeCounters
      else s.modCounter c.handle fun x => { x with gated := x.gated ++ [m.id] }

/-- MEMBER_REGISTER (R62): the member named by the input, once (DEDUCED 41). -/
def execMemberRegister (s : State) : Host.Outcome State Fault Refusal :=
  match s.input with
  | .id i =>
    match s.member? i with
    | none => .next s
    | some m => if m.registered || m.st != .gated then .next s else .next (s.register m)
  | _ => .next s

end Sys2Proof.Machine
end

