-- ==== Sys2Proof/Machine/Control.lean ====
section
/-! DEFINITION. Control, guard prefixes and crews (spec/06_issue.md R134 to R151, spec/04_encoding.md
R97 to R99), less the branches through tables, which read memory. -/
namespace Sys2Proof.Machine

open Sys2Proof

/-- R136: NOP. -/
def execNop (s : State) : Host.Outcome State Fault Refusal := issueWord .nop s fun s t => s.finish t.uid

/-- No result is due to a girt slot of the thread's lane (R187); true outside a bent. -/
def State.laneLanded (s : State) (t : Thread) : Bool :=
  match s.bentOf t with
  | none => true
  | some (f, k) => f.girtsLanded k t.lane

/-- R137: EXIT; in a lane of a bent once its girt results have landed (R187). -/
def execExit (s : State) : Host.Outcome State Fault Refusal :=
  issueWhen .exit s (fun s t => s.laneLanded t) fun s t => s.endThread t.uid

/-- R138: YIELD; what it does to the order of issue is timing. -/
def execYield (s : State) : Host.Outcome State Fault Refusal := issueWord .yield s fun s t => s.finish t.uid

/-- R143: RET. -/
def execRet (a : Name) (s : State) : Host.Outcome State Fault Refusal :=
  issueWord (.ret a) s fun s t => s.jump t.uid (s.name t a)

/-- A pause length: 1 to 65,535 cycles (R139, R387). -/
def pauseLength (n : Word) : Nat := if n.toNat = 0 then 1 else Nat.min n.toNat 65535

/-- Opens a pause window of n cycles from a time on, replacing an open one (R126); a hit closes MWAITM's (R387). -/
def State.openPause (s : State) (u : Nat) (start : DWord) (n : Nat) (hitCloses : Bool) : State :=
  s.modThread u fun t => { t with pause := some (start + BitVec.ofNat 64 n), hitCloses := hitCloses }

/-- R139: PAUSE. -/
def execPause (a : Name) (i : BitVec 10) (s : State) : Host.Outcome State Fault Refusal :=
  issueWord (.pause a i) s fun s t =>
    (s.openPause t.uid s.clock (pauseLength (s.name t a + i.setWidth 32)) false).finish t.uid

/-- The target of a format J word (R88). -/
def targetOf (pc : Word) (o : BitVec 23) : Word := pc + o.signExtend 32

/-- R140: a conditional branch. -/
def State.branch (s : State) (t : Thread) (taken : Bool) (o : BitVec 23) : State :=
  if taken then s.jump t.uid (targetOf t.pc o) else s.finish t.uid

/-- R140: B. -/
def execB (p : BitVec 3) (o : BitVec 23) (s : State) : Host.Outcome State Fault Refusal :=
  issueWord (.b p o) s fun s t => s.branch t (t.pred p) o
/-- R140: BN. -/
def execBn (p : BitVec 3) (o : BitVec 23) (s : State) : Host.Outcome State Fault Refusal :=
  issueWord (.bn p o) s fun s t => s.branch t (!t.pred p) o
/-- R141: JMP. -/
def execJmp (o : BitVec 23) (s : State) : Host.Outcome State Fault Refusal :=
  issueWord (.jmp o) s fun s t => s.jump t.uid (targetOf t.pc o)
/-- R141: CALL writes the return index to name 31. -/
def execCall (o : BitVec 23) (s : State) : Host.Outcome State Fault Refusal :=
  issueWord (.call o) s fun s t => (s.setName t 31 (t.pc + 1)).jump t.uid (targetOf t.pc o)

/-- The highest stage of an SGUARD among skipped words: the lane has come to it (R183). -/
def topStage (words : List Word) : Nat :=
  words.foldl (fun g w => match decode w with
    | .ok (.sguard x _) => Nat.max g x.toNat
    | _ => g) 0

/-- A lane of a bent skips words: it passes the stages below those of the SGUARDs among them (R183). -/
def State.skipStages (s : State) (t : Thread) (words : List Word) : State :=
  match s.bentOf t with
  | none => s
  | some (f, k) => s.passStage t f k (topStage words)

/-- A live prefix counts as a covered word of the outer run, opens its own over c words and leaves the slot to its
first word (R97, R99). -/
def State.openRun (s : State) (t : Thread) (stageKind : Bool) (stage c : Nat) : State :=
  s.modThread t.uid fun x => { x with
    pc := x.pc + 1
    wait := .covered t.uncover.pc t.uncover.runs t.uncover.reached
    runs := lowerRuns x.runs 1 ++ [⟨stageKind, stage, c⟩] }

/-- A dead prefix skips its c words, which count against the outer run, and issues alone (R97, R99, R183, R476). -/
def State.skipRun (s : State) (t : Thread) (c : Nat) : State :=
  ((s.skipStages t (((s.wordsOf t).drop (t.pc.toNat + 1)).take c)).modThread t.uid fun x => { x with
    pc := x.pc + 1 + BitVec.ofNat 32 c, wait := .none, runs := lowerRuns x.runs (1 + c) }).chargeIssue t.member 1

/-- A prefix that covers c words; a dead one uses the slot that the live prefixes before it began (R97). -/
def State.coverRun (s : State) (t : Thread) (c : Nat) (live : Bool) : State :=
  if live then s.openRun t false 0 c else s.skipRun t c

/-- R144: GUARD. -/
def execGuard (p : BitVec 3) (c : BitVec 5) (s : State) : Host.Outcome State Fault Refusal :=
  issueWord (.guard p c) s fun s t => s.coverRun t (c.toNat + 1) (t.pred p)
/-- R144: GUARDN. -/
def execGuardn (p : BitVec 3) (c : BitVec 5) (s : State) : Host.Outcome State Fault Refusal :=
  issueWord (.guardn p c) s fun s t => s.coverRun t (c.toNat + 1) (!t.pred p)

/-- R145: CREWNEW. -/
def execCrewnew (d a : Name) (s : State) : Host.Outcome State Fault Refusal :=
  issueWord (.crewnew d a) s fun s t =>
    let w := s.name t a
    if w = 0 ∨ 64 < w.toNat then s.trap t.uid 0x123 0
    else match s.member? t.member with
      | none => s.result t d 0
      | some m =>
        if s.canMakeCrew m then
          let (s', c) := s.newCrew t.core t.member w.toNat none
          s'.result t d c.idWord
        else s.result t d 0

/-- A thread moves to a lane of another crew; its join label is cleared and its old crew may dissolve
(R132, R146). -/
def State.moveTo (s : State) (t : Thread) (crew lane : Nat) : State :=
  ((s.modThread t.uid fun x => { x with crew := crew, lane := lane, join := none }).modCrew crew
    fun c => { c with held := true }).dissolveIfEmpty t.crew

/-- R146: JOIN. -/
def execJoin (d a : Name) (s : State) : Host.Outcome State Fault Refusal :=
  issueWord (.join d a) s fun s t =>
    if s.inBent t then s.trap t.uid 0x121 0
    else match s.crewById t.core t.member (s.name t a) with
      | none => s.result t d 0xFFFFFFFF
      | some c =>
        if c.cid = t.crew then s.result t d (BitVec.ofNat 32 t.lane)
        else if c.bent.isSome ∨ s.isFrameCrew c.cid then s.result t d 0xFFFFFFFF
        else match s.freeLane c with
          | none => s.result t d 0xFFFFFFFF
          | some l => (s.moveTo t c.cid l).result t d (BitVec.ofNat 32 l)

/-- R147: LEAVE. -/
def execLeave (d : Name) (s : State) : Host.Outcome State Fault Refusal :=
  issueWord (.leave d) s fun s t =>
    if s.inBent t then s.trap t.uid 0x121 0
    else if (s.crewThreads t.crew).length = 1 then
      s.result t d (((s.crew? t.crew).map (·.idWord)).getD 0)
    else match s.member? t.member with
      | none => s.result t d 0
      | some m =>
        if s.canMakeCrew m then
          let (s', c) := s.newCrew t.core t.member 1 none
          (s'.moveTo t c.cid 0).result t d c.idWord
        else s.result t d 0

/-- The thread enters the gathering at its word (R128). -/
def State.gather (s : State) (t : Thread) (mask : DWord) : State := s.setWait t.uid (.gather mask)
/-- A mask that names every lane (R178, R375). -/
def everyLane : DWord := BitVec.allOnes 64

/-- R148: REJOIN. -/
def execRejoin (a : Name) (s : State) : Host.Outcome State Fault Refusal :=
  issueWord (.rejoin a) s fun s t => s.gather t (s.pair t a)
/-- R150: BALLOT. -/
def execBallot (d a : Name) (p : BitVec 3) (s : State) : Host.Outcome State Fault Refusal :=
  issueWord (.ballot d a p) s fun s t => s.gather t (s.pair t a)

/-- A 64-bit mask of the lanes in a list. -/
def laneMask (ls : List Nat) : DWord := ls.foldl (fun m l => m ||| (1#64 <<< l)) 0

/-- R149: the answer of CREWQ about a crew; a lane of a bent that has ended holds no thread (R187). -/
def State.crewAnswer (s : State) (c : Crew) (sel : BitVec 2) : Word :=
  let lanes := ((s.crewThreads c.cid).filter Thread.lives).map (·.lane)
  match sel.toNat with
  | 0 => BitVec.ofNat 32 lanes.length
  | 1 => BitVec.ofNat 32 c.width
  | 2 => loWord (laneMask lanes)
  | _ => hiWord (laneMask lanes)

/-- R149: CREWQ; an a field of 0 names the thread's own crew. -/
def execCrewq (d a : Name) (sel : BitVec 2) (s : State) : Host.Outcome State Fault Refusal :=
  issueWord (.crewq d a sel) s fun s t =>
    let c := if a = 0 then s.crew? t.crew else s.crewById t.core t.member (s.name t a)
    s.result t d ((c.map fun c => s.crewAnswer c sel).getD 0)

end Sys2Proof.Machine
end

