-- ==== Sys2Proof/Machine/Fetch.lean ====
section
/-! DEFINITION. What happens before a word issues: which threads may issue, the join-label hold (R129),
fetching and decoding the word at the PC (R84, R95), and placing one word where the next step fetches it. -/
namespace Sys2Proof.Machine

open Sys2Proof

/-- What an issue slot given to a thread comes to: the state is settled without an instruction, or the
thread issues this instruction. -/
inductive Fetched where
  | settled (s : State)
  | run (i : Instr) (s : State)

/-- A thread's member and core let it issue: the member is Running, not stopping and not restoring
(R428, R437), and the core's clocks run (R82, R83). -/
def State.mayIssue (s : State) (t : Thread) : Bool :=
  match s.member? t.member with
  | none => false
  | some m =>
    m.st = .running && m.stop = .none && m.divert.isNone && !(s.core t.core).gated

/-- The thread's wait leaves it an issue slot: it waits for nothing, for its own word, or at its join
label (R122). -/
def Wait.slotOpen (w : Wait) : Bool :=
  match w with
  | .none => true
  | .word => true
  | .covered _ _ _ => true
  | .held _ => true
  | _ => false

/-- The word at the PC (R84). -/
def State.fetchWord (s : State) (t : Thread) : Option Word := (s.wordsOf t)[t.pc.toNat]?

/-- Fetches and decodes the word at the PC, with the checks of R95 in their order: 1 to 4 come from the
fetch and the decoder; 5 and 6 come before 7 and 8. -/
def State.fetchDecode (s : State) (t : Thread) : Fetched :=
  match s.fetchWord t with
  | none => .settled (s.trap t.uid 0x007 (t.pc.setWidth 64))
  | some w =>
    match decode w with
    | .ok i => .run i { s with cur := some t.uid }
    | .bad c =>
      if c < 3 then .settled (s.trap t.uid c 0)
      else .settled (s.trap t.uid ((s.wordCause t w).getD c) 0)

/-- The hold at a join label, then the fetch (R129). A label at the first word that a live prefix covers holds no
thread there, whose slot is the prefix's, and stays set (DESIGN CHOICE 77). -/
def State.holdOrFetch (s : State) (t : Thread) : Fetched :=
  if t.join = some t.pc then
    if s.labelMet t then
      (s.releaseLabel t.crew t.pc).fetchDecode { t with join := none, wait := .none }
    else match t.wait with
      | .none => .settled (s.setWait t.uid (.held s.clock))
      | .word => s.fetchDecode t
      | .covered _ _ _ => s.fetchDecode t
      | _ => .settled s
  else s.fetchDecode t

/-- The word that bits numbered as the opcode table numbers them make. -/
def tableWord (nbits w : Nat) : Word := BitVec.ofNat 32 (w % 2 ^ nbits)

/-- The smallest launch record: one thread of 128 registers with two scratchpad units. -/
def tinyRecord (cls : Nat) : LaunchRec where
  container := 1
  function := 1
  version := 1
  entry := 0
  cls := cls
  width := 1
  regs := 8
  scratch := 2
  acc := 0
  tiles := 0
  tags := 0
  rings := 0
  depth := 0
  cqcrew := 0
  spcrews := 0
  carrypred := 0
  spslots := 0
  flags := 0
  members := 1
  gate := 0xFFFFFFFF
  done := 0xFFFFFFFF
  carry := 0
  args := []
  schedbase := 0
  schedcount := 0
  runlimit := 0
  replytag := 0
  operands := []
  resOk := true

/-- A Running member of a record on a core. -/
def tinyMember (id core : Nat) (d : LaunchRec) : Member where
  id := id
  job := 1
  acct := 0
  part := 0
  prio := 0
  index := 0
  container := d.container
  version := 1
  desc := d
  mask := 0
  ep := 0
  byYput := false
  st := .running
  sect := 0
  registered := true
  since := 0
  firstSince := none
  skips := 0
  pinned := false
  moved := false
  onCore := true
  core := core
  tids := List.range (d.width + d.spslots)
  order := 0
  runSince := 0
  billed := 0
  used := 0
  issue := 0
  stop := .none
  stopAt := 0
  endCode := 0
  nfault := 0
  fault1 := none
  losses := []
  phase := none
  scratch := []
  regions := []
  rings := []
  tcfg := []
  tband := []
  tiles := []
  accs := []
  savedCells := []
  savedOwner := none
  query := []
  barriers := []
  sched := []
  schedCtr := 0
  divert := none
  deferred := []
  clk := []
  did := []
  quiesced := false
  freed := []
  retire := 0
  decremented := false

/-- A thread as dispatch, SPAWN or a bent's creation makes one, every register zero (R66, R120) (DESIGN CHOICE 4). -/
def freshThread (uid tid core member crew lane : Nat) (pc : Word) : Thread where
  uid := uid
  tid := tid
  core := core
  member := member
  crew := crew
  lane := lane
  pc := pc
  preds := 1
  wb := 0
  regs := []
  runs := []
  join := none
  pause := none
  hitCloses := false
  sat := false
  mark := 0
  seeds := []
  monitor := none
  pendq := []
  latched := none
  marks := []
  xpc := 0
  xaddr := 0
  xcause := 0
  xstat := 0
  busy := false
  traps := 0
  wait := .none
  issuedAt := 0
  reached := 0
  stageClk := []
  clk := []
  issued := []
  fenceIds := []
  fenceClk := []
  engClk := []

/-- A container whose one version holds one word. -/
def tinyContainer (w : Word) : Container where
  handle := 1
  part := 0
  cls := 0
  current := 1
  versions := [{ num := 1, words := [w], funcs := [⟨1, 0, 0⟩], templates := [], scratch := [], shared := [] }]

/-- The state with one word stored where the next step fetches it: a loaded container with that word
alone, one Running member with one thread at index 0, on an S-core for the sieve's words and an M-core
for all others, and an issue slot for that thread (DESIGN CHOICE 1). -/
def State.placeWord (s : State) (w : Word) : State :=
  let core := if wordMajor w = 0x1D then Config.mCores else 0
  { s with
    nym := { s.nym with sill := .running }
    containers := [tinyContainer w]
    members := [tinyMember 1 core (tinyRecord (if core = 0 then 0 else 1))]
    crews := [⟨1, core, 0, 0, 1, 1, none, true, []⟩]
    threads := [freshThread 1 0 core 1 1 0 0]
    cores := []
    agenda := [.issue 1] }

end Sys2Proof.Machine
end

