-- ==== Sys2Proof/Machine/Integer.lean ====
section
/-! DEFINITION. Integer, address and predicate instructions (spec/07_integer.md, R152 to R177). -/
namespace Sys2Proof.Machine

open Sys2Proof

/-- Division truncating toward zero, with its two fixed results (R157). -/
def divSigned (a b : Word) : Word :=
  if b = 0 then 0xFFFFFFFF
  else if a = 0x80000000 ∧ b = 0xFFFFFFFF then 0x80000000
  else BitVec.ofInt 32 (a.toInt.tdiv b.toInt)
/-- Unsigned division (R157). -/
def divUnsigned (a b : Word) : Word := if b = 0 then 0xFFFFFFFF else BitVec.ofNat 32 (a.toNat / b.toNat)
/-- The signed remainder, with the dividend's sign (R157). -/
def remSigned (a b : Word) : Word :=
  if b = 0 then a
  else if a = 0x80000000 ∧ b = 0xFFFFFFFF then 0
  else BitVec.ofInt 32 (a.toInt - b.toInt * a.toInt.tdiv b.toInt)
/-- The unsigned remainder (R157). -/
def remUnsigned (a b : Word) : Word := if b = 0 then a else BitVec.ofNat 32 (a.toNat % b.toNat)

/-- A shift count (R158). -/
def shiftCount (b : Word) : Nat := b.toNat % 32
/-- Rotation left by n below 32 (R158). -/
def rotLeft (a : Word) (n : Nat) : Word := (a <<< n) ||| (a >>> (32 - n))

/-- Leading zero bits of the low n bits of a word (R159). -/
def leadingZeros (a : Word) (n : Nat) : Nat :=
  match n with
  | 0 => 0
  | n + 1 => if a.getLsbD n then 0 else 1 + leadingZeros a n
/-- One bits among the low n bits of a word (R159). -/
def onesCount (a : Word) (n : Nat) : Nat :=
  match n with
  | 0 => 0
  | n + 1 => (if a.getLsbD n then 1 else 0) + onesCount a n
/-- The low n bits of a word placed at mirrored positions (R159). -/
def mirrorBits (a : Word) (n : Nat) : Word :=
  match n with
  | 0 => 0
  | n + 1 => (if a.getLsbD n then (1#32 <<< (31 - n)) else 0) ||| mirrorBits a n

/-- The signed product of two words in 64 bits (R156). -/
def mulWide (a b : Word) : DWord := BitVec.ofInt 64 (a.toInt * b.toInt)
/-- The unsigned product of two words in 64 bits (R156). -/
def mulWideU (a b : Word) : DWord := BitVec.ofNat 64 (a.toNat * b.toNat)

/-- The two-source word operation of a func: reads both sources, writes the destination. -/
def binary (i : Instr) (d a b : Name) (f : Word → Word → Word) (s : State) :
    Host.Outcome State Fault Refusal :=
  issueWord i s fun s t => s.result t d (f (s.name t a) (s.name t b))
/-- The one-source word operation. -/
def unary (i : Instr) (d a : Name) (f : Word → Word) (s : State) : Host.Outcome State Fault Refusal :=
  issueWord i s fun s t => s.result t d (f (s.name t a))

/-- R156: ADD. -/
def execAdd (d a b : Name) (s : State) : Host.Outcome State Fault Refusal :=
  binary (.add d a b) d a b (fun x y => x + y) s
/-- R156: SUB. -/
def execSub (d a b : Name) (s : State) : Host.Outcome State Fault Refusal :=
  binary (.sub d a b) d a b (fun x y => x - y) s
/-- R156: MUL. -/
def execMul (d a b : Name) (s : State) : Host.Outcome State Fault Refusal :=
  binary (.mul d a b) d a b (fun x y => x * y) s
/-- R156: MULH. -/
def execMulh (d a b : Name) (s : State) : Host.Outcome State Fault Refusal :=
  binary (.mulh d a b) d a b (fun x y => hiWord (mulWide x y)) s
/-- R156: MULHU. -/
def execMulhu (d a b : Name) (s : State) : Host.Outcome State Fault Refusal :=
  binary (.mulhu d a b) d a b (fun x y => hiWord (mulWideU x y)) s
/-- R156: MULW writes the pair after reading both sources. -/
def execMulw (d a b : Name) (s : State) : Host.Outcome State Fault Refusal :=
  issueWord (.mulw d a b) s fun s t => s.resultPair t d (mulWide (s.name t a) (s.name t b))
/-- R157: DIV. -/
def execDiv (d a b : Name) (s : State) : Host.Outcome State Fault Refusal :=
  binary (.div d a b) d a b (divSigned) s
/-- R157: DIVU. -/
def execDivu (d a b : Name) (s : State) : Host.Outcome State Fault Refusal :=
  binary (.divu d a b) d a b (divUnsigned) s
/-- R157: REM. -/
def execRem (d a b : Name) (s : State) : Host.Outcome State Fault Refusal :=
  binary (.rem d a b) d a b (remSigned) s
/-- R157: REMU. -/
def execRemu (d a b : Name) (s : State) : Host.Outcome State Fault Refusal :=
  binary (.remu d a b) d a b (remUnsigned) s
/-- R158: AND. -/
def execAnd (d a b : Name) (s : State) : Host.Outcome State Fault Refusal :=
  binary (.and d a b) d a b (fun x y => x &&& y) s
/-- R158: OR. -/
def execOr (d a b : Name) (s : State) : Host.Outcome State Fault Refusal :=
  binary (.or d a b) d a b (fun x y => x ||| y) s
/-- R158: XOR. -/
def execXor (d a b : Name) (s : State) : Host.Outcome State Fault Refusal :=
  binary (.xor d a b) d a b (fun x y => x ^^^ y) s
/-- R158: ANDN. -/
def execAndn (d a b : Name) (s : State) : Host.Outcome State Fault Refusal :=
  binary (.andn d a b) d a b (fun x y => x &&& ~~~y) s
/-- R158: SHL. -/
def execShl (d a b : Name) (s : State) : Host.Outcome State Fault Refusal :=
  binary (.shl d a b) d a b (fun x y => x <<< shiftCount y) s
/-- R158: SHR. -/
def execShr (d a b : Name) (s : State) : Host.Outcome State Fault Refusal :=
  binary (.shr d a b) d a b (fun x y => x >>> shiftCount y) s
/-- R158: SRA. -/
def execSra (d a b : Name) (s : State) : Host.Outcome State Fault Refusal :=
  binary (.sra d a b) d a b (fun x y => x.sshiftRight (shiftCount y)) s
/-- R158: ROL. -/
def execRol (d a b : Name) (s : State) : Host.Outcome State Fault Refusal :=
  binary (.rol d a b) d a b (fun x y => rotLeft x (shiftCount y)) s
/-- R159: MIN. -/
def execMin (d a b : Name) (s : State) : Host.Outcome State Fault Refusal :=
  binary (.min d a b) d a b (fun x y => if x.slt y then x else y) s
/-- R159: MAX. -/
def execMax (d a b : Name) (s : State) : Host.Outcome State Fault Refusal :=
  binary (.max d a b) d a b (fun x y => if x.slt y then y else x) s
/-- R159: MINU. -/
def execMinu (d a b : Name) (s : State) : Host.Outcome State Fault Refusal :=
  binary (.minu d a b) d a b (fun x y => if x.ult y then x else y) s
/-- R159: MAXU. -/
def execMaxu (d a b : Name) (s : State) : Host.Outcome State Fault Refusal :=
  binary (.maxu d a b) d a b (fun x y => if x.ult y then y else x) s
/-- R159: CLZ. -/
def execClz (d a : Name) (s : State) : Host.Outcome State Fault Refusal :=
  unary (.clz d a) d a (fun x => BitVec.ofNat 32 (leadingZeros x 32)) s
/-- R159: POPC. -/
def execPopc (d a : Name) (s : State) : Host.Outcome State Fault Refusal :=
  unary (.popc d a) d a (fun x => BitVec.ofNat 32 (onesCount x 32)) s
/-- R159: BREV. -/
def execBrev (d a : Name) (s : State) : Host.Outcome State Fault Refusal :=
  unary (.brev d a) d a (fun x => mirrorBits x 32) s
/-- R160: SEL. -/
def execSel (k : BitVec 3) (d a b : Name) (s : State) : Host.Outcome State Fault Refusal :=
  issueWord (.sel k d a b) s fun s t => s.result t d (if t.pred k then s.name t a else s.name t b)
/-- R161: ADD64. -/
def execAdd64 (d a b : Name) (s : State) : Host.Outcome State Fault Refusal :=
  issueWord (.add64 d a b) s fun s t => s.resultPair t d (s.pair t a + s.pair t b)
/-- R161: SUB64. -/
def execSub64 (d a b : Name) (s : State) : Host.Outcome State Fault Refusal :=
  issueWord (.sub64 d a b) s fun s t => s.resultPair t d (s.pair t a - s.pair t b)
/-- R162: CMP. -/
def execCmp (c p : BitVec 3) (a b : Name) (s : State) : Host.Outcome State Fault Refusal :=
  issueWord (.cmp c p a b) s fun s t => s.resultPred t p (intCond c (s.name t a) (s.name t b))
/-- R163: ADDI. -/
def execAddi (d a : Name) (i : BitVec 10) (s : State) : Host.Outcome State Fault Refusal :=
  unary (.addi d a i) d a (fun x => x + i.signExtend 32) s
/-- R163: ANDI. -/
def execAndi (d a : Name) (i : BitVec 10) (s : State) : Host.Outcome State Fault Refusal :=
  unary (.andi d a i) d a (fun x => x &&& i.signExtend 32) s
/-- R163: ORI. -/
def execOri (d a : Name) (i : BitVec 10) (s : State) : Host.Outcome State Fault Refusal :=
  unary (.ori d a i) d a (fun x => x ||| i.signExtend 32) s
/-- R163: XORI. -/
def execXori (d a : Name) (i : BitVec 10) (s : State) : Host.Outcome State Fault Refusal :=
  unary (.xori d a i) d a (fun x => x ^^^ i.signExtend 32) s
/-- R163: SHLI. -/
def execShli (d a : Name) (n : BitVec 5) (s : State) : Host.Outcome State Fault Refusal :=
  unary (.shli d a n) d a (fun x => x <<< n.toNat) s
/-- R163: SHRI. -/
def execShri (d a : Name) (n : BitVec 5) (s : State) : Host.Outcome State Fault Refusal :=
  unary (.shri d a n) d a (fun x => x >>> n.toNat) s
/-- R163: SRAI. -/
def execSrai (d a : Name) (n : BitVec 5) (s : State) : Host.Outcome State Fault Refusal :=
  unary (.srai d a n) d a (fun x => x.sshiftRight n.toNat) s
/-- R163: MULI. -/
def execMuli (d a : Name) (i : BitVec 10) (s : State) : Host.Outcome State Fault Refusal :=
  unary (.muli d a i) d a (fun x => x * i.signExtend 32) s
/-- R164: LI. -/
def execLi (d : Name) (i : BitVec 19) (s : State) : Host.Outcome State Fault Refusal :=
  issueWord (.li d i) s fun s t => s.result t d (i.signExtend 32)
/-- R164: LIH keeps bits 12:0 of its destination. -/
def execLih (d : Name) (i : BitVec 19) (s : State) : Host.Outcome State Fault Refusal :=
  issueWord (.lih d i) s fun s t => s.result t d (i ++ (s.name t d).extractLsb' 0 13)
/-- R165: CMPI. -/
def execCmpi (c p : BitVec 3) (a : Name) (i : BitVec 10) (s : State) : Host.Outcome State Fault Refusal :=
  issueWord (.cmpi c p a i) s fun s t => s.resultPred t p (intCond c (s.name t a) (i.signExtend 32))
/-- R167: PAND. -/
def execPand (d a b : BitVec 3) (s : State) : Host.Outcome State Fault Refusal :=
  issueWord (.pand d a b) s fun s t => s.resultPred t d (t.pred a && t.pred b)
/-- R167: POR. -/
def execPor (d a b : BitVec 3) (s : State) : Host.Outcome State Fault Refusal :=
  issueWord (.por d a b) s fun s t => s.resultPred t d (t.pred a || t.pred b)
/-- R167: PXOR. -/
def execPxor (d a b : BitVec 3) (s : State) : Host.Outcome State Fault Refusal :=
  issueWord (.pxor d a b) s fun s t => s.resultPred t d (t.pred a != t.pred b)
/-- R167: PNOT. -/
def execPnot (d a : BitVec 3) (s : State) : Host.Outcome State Fault Refusal :=
  issueWord (.pnot d a) s fun s t => s.resultPred t d (!t.pred a)
/-- R168: PGET; bit 0 reads 1. -/
def execPget (d : Name) (s : State) : Host.Outcome State Fault Refusal :=
  issueWord (.pget d) s fun s t => s.result t d ((t.preds ||| 1).setWidth 32)
/-- R168: PSET writes p1 to p7. -/
def execPset (a : Name) (s : State) : Host.Outcome State Fault Refusal :=
  issueWord (.pset a) s fun s t =>
    (s.modThread t.uid fun x => { x with preds := (s.name t a).setWidth 8 ||| 1 }).finish t.uid

/-- The largest window base of an allotment (R169). -/
def maxWindow (alloc : Nat) : Nat := if 128 ≤ alloc then (alloc - 128) / 16 else 0

/-- R169: WBASE. -/
def execWbase (a : Name) (s : State) : Host.Outcome State Fault Refusal :=
  issueWord (.wbase a) s fun s t =>
    let w := s.name t a
    if s.inBent t then s.trap t.uid 0x125 0
    else if maxWindow (s.allot t) < w.toNat then s.trap t.uid 0x124 (w.setWidth 64)
    else (s.modThread t.uid fun x => { x with wb := w.toNat }).finish t.uid

/-- R171: the window description. -/
def windowWord (alloc wb : Nat) : Word := field (alloc / 16) 16 6 ||| field (maxWindow alloc) 8 5 ||| field wb 0 5

/-- R171: WBASEQ. -/
def execWbaseq (d : Name) (s : State) : Host.Outcome State Fault Refusal :=
  issueWord (.wbaseq d) s fun s t => s.result t d (windowWord (s.allot t) t.wb)

/-- The stage of a lane's innermost open stage run (R189). -/
def stageOf (rs : List Run) : Option Nat := (rs.reverse.find? fun r => r.stageKind).map (·.stage)

/-- `%iter` (R173, R182): the iteration a lane of a bent serves inside an open stage run. -/
def State.iterOf (s : State) (t : Thread) : Word :=
  match s.bentOf t, stageOf t.runs with
  | some (_, k), some g => BitVec.ofInt 32 ((k : Int) - g)
  | _, _ => 0xFFFFFFFF

/-- A 32-bit special register (R173). -/
def State.special (s : State) (t : Thread) (sel : Nat) : Word :=
  let m := s.member? t.member
  let num (f : Member → Nat) : Word := BitVec.ofNat 32 ((m.map f).getD 0)
  match sel with
  | 0x00 => BitVec.ofNat 32 t.tid
  | 0x01 => BitVec.ofNat 32 t.core
  | 0x02 => BitVec.ofNat 32 (dieOf t.core)
  | 0x03 => if isM t.core then BitVec.ofNat 32 (t.core / 4) else 0xFFFFFFFF
  | 0x04 => if isM t.core then BitVec.ofNat 32 (t.core % 4) else 0xFFFFFFFF
  | 0x05 => ((s.crew? t.crew).map (·.idWord)).getD 0
  | 0x06 => BitVec.ofNat 32 t.lane
  | 0x07 => BitVec.ofNat 32 (((s.crew? t.crew).map (·.width)).getD 0)
  | 0x08 => ((s.bentOf t).map fun b => BitVec.ofNat 32 b.2).getD 0xFFFFFFFF
  | 0x09 => s.iterOf t
  | 0x0A => ((s.bentOf t).map fun b => BitVec.ofNat 32 b.1.n).getD 0
  | 0x0C => num (·.part)
  | 0x0D => num (·.acct)
  | 0x0F => num (·.index)
  | 0x10 => num (·.version)
  | 0x11 => boolWord t.sat
  | 0x12 => BitVec.ofNat 32 t.wb
  | 0x13 => BitVec.ofNat 32 (s.allot t)
  | 0x14 => t.mark
  | _ => 0

/-- R172: MFS; `%clock` and `%job` are pairs. Every core reads the one clock of the device (R175) (DESIGN CHOICE 104). -/
def execMfs (d : Name) (sel : BitVec 7) (s : State) : Host.Outcome State Fault Refusal :=
  issueWord (.mfs d sel) s fun s t =>
    if sel = 0x0B then s.resultPair t d s.clock
    else if sel = 0x0E then s.resultPair t d (((s.member? t.member).map (·.job)).getD 0)
    else s.result t d (s.special t sel.toNat)

/-- R172: MTS; `%sat` takes bit 0 (R174), `%mark` the word. -/
def execMts (sel : BitVec 7) (b : Name) (s : State) : Host.Outcome State Fault Refusal :=
  issueWord (.mts sel b) s fun s t =>
    let v := s.name t b
    (s.modThread t.uid fun x =>
      if sel = 0x11 then { x with sat := v.getLsbD 0 } else { x with mark := v }).finish t.uid

end Sys2Proof.Machine
end

