-- ==== Sys2Proof/Machine/FrameLoop.lean ====
section
/-! DEFINITION. Frame loops (spec/08_frame_loops.md R178 to R201): the frame words, the frame controller's
creation and retirement of bents, and a frame's start and end. -/
namespace Sys2Proof.Machine

open Sys2Proof

/-- The word of FRAMEEND (R180). -/
def frameendWord : Word := 0x30400000

/-- The body's end: the lowest index above P that holds FRAMEEND, within 4,096 words (R179, R180). -/
def frameEnd? (words : List Word) (p : Nat) : Option Nat :=
  (((words.drop (p + 1)).take 4096).findIdx? fun w => w == frameendWord).map fun i => p + 1 + i

/-- Free slots of a member's pool: its width and spawn reserve, less its threads and what its frames
hold (R121, R181). -/
def State.poolFree (s : State) (m : Member) : Nat :=
  let bents := (s.crews.filter fun c => c.member == m.id && c.bent.isSome).map (·.cid)
  let threads := ((s.memberThreads m.id).filter fun t => !bents.contains t.crew).length
  let held := ((s.frames.filter fun f => f.member == m.id).map fun f => f.d * f.lanes.length).foldl (· + ·) 0
  m.desc.width + m.desc.spslots - threads - held

/-- Slots of a member's pool that no thread of it and no frame of it holds, lowest first (R121, R181). -/
def State.poolTids (s : State) (m : Nat) : List Nat :=
  let tids := ((s.member? m).map (·.tids)).getD []
  tids.filter fun i => !((s.memberThreads m).any fun t => t.tid == i) &&
    !(s.frames.any fun f => f.member == m && f.slots.contains i)

/-- The slot of a member's new thread: the lowest free one of its pool (R121, R173) (DESIGN CHOICE 76). -/
def State.freeTid (s : State) (m : Nat) : Nat := (s.poolTids m).headD 0

/-- The slot of a new bent lane: the lowest of its frame's that no thread holds (R181) (DESIGN CHOICE 76). -/
def State.bentTid (s : State) (f : Frame) : Nat :=
  ((f.slots.filter fun i => !((s.memberThreads f.member).any fun t => t.tid == i)).headD 0)

/-- The checks of a frame at its release, in the order of R179: the cause and `xaddr` of the first that
fails. -/
def State.frameCause (s : State) (m : Member) (t : Thread) (lanes : Nat) (n c : Word) : Option (Nat × DWord) :=
  let d := (c.extractLsb' 0 4).toNat
  let g := (c.extractLsb' 4 4).toNat
  if c.extractLsb' 8 24 != 0 || decide (d < 2) || decide (8 < d) || decide (g < 1) || decide (8 < g) then
    some (0x100, c.setWidth 64)
  else if 0xFFFFFFF0 < n.toNat then some (0x10B, n.setWidth 64)
  else if m.desc.depth < d then some (0x101, BitVec.ofNat 64 d)
  else if s.allot t < 128 then some (0x102, BitVec.ofNat 64 (s.allot t))
  else if (frameEnd? (s.wordsOf t) t.pc.toNat).isNone then some (0x104, t.pc.setWidth 64)
  else if s.poolFree m < d * lanes ∨ s.freeCrews m.core < d then some (0x103, 0)
  else none

/-- Every thread of some takes a trap. -/
def State.trapEach (s : State) (ts : List Thread) (cause : Nat) (addr : DWord) : State :=
  match ts with
  | [] => s
  | t :: rest => State.trapEach (s.trap t.uid cause addr) rest cause addr

/-- Every thread of some waits. -/
def State.waitEach (s : State) (ts : List Thread) (w : Wait) : State :=
  match ts with
  | [] => s
  | t :: rest => State.waitEach (s.setWait t.uid w) rest w

/-- What the threads of some have done. -/
def clocksOf (ts : List Thread) : Clock := ts.foldl (fun c t => Clock.join c t.clk) []

/-- The frame crew resumes at E + 1, with the final values in its seed blocks (R188) and a run that RETT has reopened over
the FRAME as it was (DESIGN CHOICE 88). -/
def State.resumeLane (s : State) (f : Frame) (t : Thread) : State :=
  let seed (m : Map 32) (slot : Nat) : Map 32 :=
    if f.retired = 0 then m
    else Map.set m slot (((f.girt? (f.retired - 1) slot t.lane).map (·.value)).getD 0)
  let resume (x : Thread) : Thread :=
    { x.follow f.did with seeds := (List.range 8).foldl seed x.seeds, pc := f.e + 1, wait := .none }
  s.modThread t.uid resume

/-- Every lane of the frame crew resumes. -/
def State.resumeLanes (s : State) (f : Frame) (ts : List Thread) : State :=
  match ts with
  | [] => s
  | t :: rest => State.resumeLanes (s.resumeLane f t) f rest

/-- No further bent will be created and none is live (R181). -/
def Frame.over (f : Frame) : Bool :=
  f.bents.isEmpty && (f.n == 0 || decide (f.n + f.s < f.next + 2))

/-- The frame ends: seeds, resources, the frame crew (R188). -/
def State.endFrame (s : State) (f : Frame) : State :=
  let s := s.resumeLanes f (s.crewThreads f.crew)
  { s with frames := s.frames.filter fun x => x.fid != f.fid }

/-- A frame starts when its gathering releases (R178, R179); with a trip count of 0 it ends at once
(R181). -/
def State.startFrame (s : State) (m : Member) (ts : List Thread) (a b : Name) : State :=
  match minBy ts (·.lane) with
  | none => s
  | some t =>
    let n := s.name t a
    let c := s.name t b
    match s.frameCause m t ts.length n c with
    | some (cause, x) => s.trapEach ts cause x
    | none =>
      let e := (frameEnd? (s.wordsOf t) t.pc.toNat).getD 0
      let f : Frame := ⟨s.nextId, t.crew, m.id, m.core, n.toNat, (c.extractLsb' 0 4).toNat,
        (c.extractLsb' 4 4).toNat, t.pc, BitVec.ofNat 32 e, ts.map (·.lane),
        (s.poolTids m.id).take ((c.extractLsb' 0 4).toNat * ts.length), 0, 0, [], [], clocksOf ts, [], []⟩
      let s := ({ s with nextId := s.nextId + 1, frames := s.frames ++ [f] }).waitEach ts (.frame f.fid)
      if n = 0 then s.endFrame f else s

/-- R194: FRAME gathers its crew. -/
def execFrame (a b : Name) (s : State) : Host.Outcome State Fault Refusal :=
  issueWord (.frame a b) s fun s t =>
    if s.inBent t then s.trap t.uid 0x105 0 else s.gather t everyLane

/-- R195: a lane that reaches FRAMEEND has passed every stage (R183), and ends once its girt results have
landed (R187). -/
def execFrameend (s : State) : Host.Outcome State Fault Refusal :=
  issueWord .frameend s fun s t =>
    match s.bentOf t with
    | none => s.trap t.uid 0x106 0
    | some (f, k) => if s.laneLanded t then s.endThread t.uid else s.passStage t f k 8

/-- R189, R196: FBREAK; from a stage above the bent's number, which only a run that RETT reopened can have, no iteration
is left (DESIGN CHOICE 89). -/
def execFbreak (s : State) : Host.Outcome State Fault Refusal :=
  issueWord .fbreak s fun s t =>
    match s.bentOf t with
    | none => s.trap t.uid 0x106 0
    | some (f, k) =>
      match stageOf t.runs with
      | none => s.trap t.uid 0x109 0
      | some g => (s.modFrame f.fid fun x => { x with n := Nat.min x.n (k + 1 - g) }).finish t.uid

/-- R198: GSEED. -/
def execGseed (g : BitVec 3) (a : Name) (s : State) : Host.Outcome State Fault Refusal :=
  issueWord (.gseed g a) s fun s t =>
    if s.inBent t then s.trap t.uid 0x105 0
    else
      let v := s.name t a
      (s.modThread t.uid fun x => { x with seeds := Map.set x.seeds g.toNat v }).finish t.uid

/-- R199: GCOLLECT. -/
def execGcollect (d : Name) (g : BitVec 3) (s : State) : Host.Outcome State Fault Refusal :=
  issueWord (.gcollect d g) s fun s t =>
    if s.inBent t then s.trap t.uid 0x105 0 else s.result t d (Map.get t.seeds g.toNat)

/-- R200: GPRES. -/
def execGpres (p : BitVec 3) (a : Name) (s : State) : Host.Outcome State Fault Refusal :=
  issueWord (.gpres p a) s fun s t =>
    if s.inBent t then s.resultPred t p (!s.nameWaits t a) else s.trap t.uid 0x106 0

/-- A lane has passed a stage: it has come to one above it, or has ended (R183). -/
def Bent.lanePassed (b : Bent) (g lane : Nat) : Bool :=
  b.ended.contains lane || decide (g < (assoc b.top lane).getD 0)

/-- Every lane of the bent before k has passed a stage, or that bent has retired (R183). -/
def Frame.lockstepOpen (f : Frame) (k g : Nat) : Bool :=
  k == 0 || match f.bents.find? fun b => b.k + 1 == k with
    | none => true
    | some b => f.lanes.all fun l => b.lanePassed g l

/-- The stage guard's effect when it is evaluated: the bent latches the stage once, the lane comes to it, covers a live
region's words and has with it what comes before its accesses there, or skips a dead region's words (R97, R182, R183,
R190, R197). -/
def State.stageGuard (s : State) (t : Thread) (f : Frame) (k g c : Nat) : State :=
  let live := f.stageLive k g
  let s := s.latchStage t f k g live
  if live then (s.openRun t true g c).modThread t.uid fun x => { x with
    stageClk := assocSet x.stageClk g (f.passedBefore k g) }
  else s.skipRun t c

/-- The lockstep lets a lane of a bent come to a stage (R183); true outside a bent. -/
def State.stageOpen (s : State) (t : Thread) (g : BitVec 3) : Bool :=
  match s.bentOf t with
  | none => true
  | some (f, k) => f.lockstepOpen k g.toNat

/-- R197: SGUARD waits for the lockstep first; a lane that has passed its stage then traps (R183). An SGUARD whose
first word has not issued in its slot is evaluated again at the same stage (DEDUCED 97). -/
def execSguard (g : BitVec 3) (c : BitVec 5) (s : State) : Host.Outcome State Fault Refusal :=
  issueWhen (.sguard g c) s (fun s t => s.stageOpen t g)
    fun s t => match s.bentOf t with
      | none => s.trap t.uid 0x106 0
      | some (f, k) =>
        if g.toNat < t.reached then s.trap t.uid 0x10A (g.setWidth 64)
        else s.stageGuard t f k g.toNat (c.toNat + 1)

/-- Names 1 to 95 of a frame crew's lane, read under its window, at names 1 to 95 of window 0 (R181). -/
def bentRegs (t : Thread) : Map 32 :=
  (List.range 95).foldl (fun m i => Map.set m (i + 1) (Map.get t.regs (16 * t.wb + i + 1))) []

/-- The bent lane of a frame crew's lane (R181). -/
def State.bentLane (s : State) (f : Frame) (crew : Nat) (t : Thread) : State :=
  let x : Thread := { freshThread s.nextId (s.bentTid f) f.core f.member crew t.lane (f.p + 1) with
    preds := t.preds, regs := bentRegs t, clk := f.clk, engClk := f.clk }
  { s with nextId := s.nextId + 1, threads := s.threads ++ [x] }

/-- The lanes of a new bent. -/
def State.bentLanes (s : State) (f : Frame) (crew : Nat) (ts : List Thread) : State :=
  match ts with
  | [] => s
  | t :: rest => State.bentLanes (s.bentLane f crew t) f crew rest

/-- The next bent may be created (R181); the registers it copies have their values (R170). -/
def State.canCreateBent (s : State) (f : Frame) : Bool :=
  f.n != 0 && decide (f.bents.length < f.d) && decide (f.next + 2 ≤ f.n + f.s) &&
    (s.crewThreads f.crew).all fun t => t.marks.all fun m =>
      !(decide (16 * t.wb < m.1) && decide (m.1 < 16 * t.wb + 96))

/-- A member's threads run: it is Running, not stopping and not restoring. -/
def State.memberRuns (s : State) (m : Nat) : Bool :=
  match s.member? m with
  | none => false
  | some x => x.st = .running && x.stop = .none && x.divert.isNone

/-- BENT_CREATE (R181): the next bent of the frame named by the input. -/
def execBentCreate (s : State) : Host.Outcome State Fault Refusal :=
  match s.input with
  | .id i =>
    match s.frame? i with
    | none => .next s
    | some f =>
      if !s.canCreateBent f || !s.memberRuns f.member then .next s
      else
        let width := ((s.crew? f.crew).map (·.width)).getD 1
        let (s, c) := s.newCrew f.core f.member width (some (f.fid, f.next))
        let s := s.modCrew c.cid fun x => { x with held := true }
        let s := s.modFrame f.fid fun x => { x with
          bents := x.bents ++ [⟨f.next, c.cid, [], [], [], []⟩]
          ring := x.ring.filter fun g => decide (f.next < g.k + (f.d + 3)) && g.k != f.next
          next := x.next + 1 }
        .next (s.bentLanes f c.cid (sortBy (·.lane)
          ((s.crewThreads f.crew).filter fun t => f.lanes.contains t.lane)))
  | _ => .next s

/-- A slot that a bent's lane did not write takes its predecessor's value, or the seed (R187). -/
def State.passThrough (s : State) (f : Frame) (k lane slot : Nat) : Girt :=
  let before : Word × Clock :=
    if k = 0 then (s.seedOf f lane slot, [])
    else match f.girt? (k - 1) slot lane with
      | some g => (g.value, g.clk)
      | none => (0, [])
  match f.girt? k slot lane with
  | some g => if g.written then g else ⟨k, slot, lane, before.1, true, false, before.2⟩
  | none => ⟨k, slot, lane, before.1, true, false, before.2⟩

/-- Every slot and lane of a retiring bent is set and pegged (R187). -/
def State.settleRing (s : State) (f : Frame) (k : Nat) : Frame :=
  (f.lanes.flatMap fun l => (List.range 8).map fun g => (l, g)).foldl
    (fun x lg => x.setGirt (s.passThrough f k lg.1 lg.2)) f

/-- The oldest bent of a frame may retire (R187). -/
def Frame.canRetire (f : Frame) (b : Bent) : Bool :=
  b.k == f.retired && f.lanes.all fun l => b.ended.contains l && f.girtsLanded b.k l

/-- Each lane's saturation flag is ORed into the frame crew (R187). -/
def State.mergeSat (s : State) (f : Frame) (b : Bent) : State :=
  let sat (lane : Nat) : Bool := s.threads.any fun t => t.crew == b.crew && t.lane == lane && t.sat
  { s with threads := updateIf s.threads (fun t => t.crew == f.crew) fun t =>
      { t with sat := t.sat || sat t.lane } }

/-- The path T accesses that threads have issued (R190). -/
def accessesOf (ts : List Thread) : Clock := ts.foldl (fun c t => Clock.join c t.accessClk) []

/-- A bent retires in one indivisible step; the last one ends the frame (R187, R188). What its lanes did on
every path counts for the frame crew's next phase boundary and for the member's end (R359, R365). -/
def State.retireBent (s : State) (f : Frame) (b : Bent) : State :=
  let s := s.mergeSat f b
  let lanes := s.crewThreads b.crew
  let settled := s.settleRing f b.k
  let g : Frame := { settled with
    bents := f.bents.filter fun x => x.k != b.k
    retired := f.retired + 1
    did := Clock.join f.did (accessesOf lanes)
    last := b.passed }
  let all := boundaryClock lanes
  let s := s.modCrew f.crew fun c => { c with did := Clock.join c.did all }
  let s := s.modMember f.member fun m => { m with did := Clock.join m.did all }
  let s := { s with
    threads := s.threads.filter fun t => t.crew != b.crew
    crews := s.crews.filter fun c => c.cid != b.crew
    frames := updateIf s.frames (fun x => x.fid == f.fid) fun _ => g }
  if g.over then s.endFrame g else s

/-- BENT_RETIRE (R187): the oldest bent of the frame named by the input. -/
def execBentRetire (s : State) : Host.Outcome State Fault Refusal :=
  match s.input with
  | .id i =>
    match s.frame? i with
    | none => .next s
    | some f =>
      match f.bents.find? fun b => f.canRetire b with
      | none => .next s
      | some b => if s.memberRuns f.member then .next (s.retireBent f b) else .next s
  | _ => .next s

end Sys2Proof.Machine
end

