-- ==== Sys2Proof/Machine/Matrix.lean ====
section
/-! DEFINITION. Tile registers and the array (spec/13_matrix.md R272 to R296): configuration, ownership,
the matrix queue and the execution of its commands. -/
namespace Sys2Proof.Machine

open Sys2Proof

/-! ## Tiles (R272 to R275) -/

/-- The element format code of a control word 0 (R273). -/
def cfgFmt (w : Word) : Nat := (w.extractLsb' 0 4).toNat
/-- Rows of a tile. -/
def cfgRows (w : Word) : Nat := (w.extractLsb' 4 6).toNat + 1
/-- Columns of a tile. -/
def cfgCols (w : Word) : Nat := (w.extractLsb' 10 8).toNat + 1
/-- The scale partner of a tile. -/
def cfgPartner (w : Word) : Nat := (w.extractLsb' 18 5).toNat
/-- Element bits of a format code (R273). -/
def tileWidth (fmt : Nat) : Nat :=
  match fmt with
  | 1 => 16
  | 2 => 16
  | 6 => 4
  | _ => 8
/-- Row bytes of a configured tile (R287). -/
def cfgRowBytes (w : Word) : Nat := cfgCols w * tileWidth (cfgFmt w) / 8

/-- A configuration is valid for tile t (R274). -/
def cfgOk (t : Nat) (w0 w1 : Word) : Bool :=
  let fmt := cfgFmt w0
  w0.extractLsb' 23 9 == 0 && w1.extractLsb' 16 16 == 0 && decide (fmt ≤ 7) &&
    (fmt == 0 || decide (cfgCols w0 * tileWidth fmt ≤ 1024)) &&
    (if fmt = 6 then cfgCols w0 % 8 == 0 && cfgPartner w0 != t else cfgPartner w0 == 0)

/-- The checks of MCFG after the tile's own number (R274): the cause and `xaddr`. -/
def mcfgCause (m : Member) (t : Nat) (w0 w1 : Word) : Option (Nat × DWord) :=
  let fmt := cfgFmt w0
  if !cfgOk t w0 w1 then some (0x0C2, w0.setWidth 64)
  else if fmt = 6 ∧ m.desc.tiles ≤ cfgPartner w0 then some (0x0C0, BitVec.ofNat 64 (cfgPartner w0))
  else if (m.mask.getLsbD 1 && (fmt == 3 || fmt == 4 || fmt == 5)) ||
      (m.mask.getLsbD 2 && (fmt == 6 || fmt == 7)) then some (0x006, 0)
  else none

/-- The control words of a tile (R278). -/
def Member.tileCfg (m : Member) (t : Nat) : TileCfg := ⟨t, Map.get m.tcfg t, Map.get m.tband t⟩

/-- Bytes of a tile register. -/
def tileBytes : Nat := 8192
/-- The bits of row r of a tile, element 0 lowest (R272, R242). -/
def Member.tileRow (m : Member) (t r : Nat) : Nat :=
  leNat ((List.range 128).map fun i => Map.get m.tiles (t * tileBytes + 128 * r + i))
/-- Element c of the row bits under a format code. -/
def rowElem (fmt row c : Nat) : Nat := row / 2 ^ (tileWidth fmt * c) % 2 ^ tileWidth fmt

/-- Entries of a map at keys from `base`, `n` of them, become zero. -/
def Map.clear {w : Nat} (m : Map w) (base n : Nat) : Map w :=
  m.filter fun x => !(decide (base ≤ x.1) && decide (x.1 < base + n))

/-- Writes bytes into a map of bytes. -/
def Map.putBytes (m : Map 8) (a : Nat) (bs : List Byte) : Map 8 :=
  match bs with
  | [] => m
  | b :: rest => Map.putBytes (Map.set m a b) (a + 1) rest

/-! ## Issue (R276 to R278) -/

/-- The core's matrix queue has room (R278). -/
def State.mqRoom (s : State) (t : Thread) : Bool := decide ((s.core t.core).mq.length < 8)

/-- The issuing crew, or a bent's frame crew, owns the array (R277). -/
def State.ownsArray (s : State) (t : Thread) : Bool := (s.core t.core).owner == some (s.crewFor t)

/-- The copies that hold an accumulator slot of a member (R321). -/
def State.slotCopies (s : State) (member slot : Nat) : List Nat :=
  (s.copies.filter fun c => c.member == member && (match c.kind with
    | .acc k _ => k == slot
    | _ => false)).map (·.id)

/-- The accumulator slot that a matrix command names. -/
def MKind.slot? (k : MKind) : Option Nat :=
  match k with
  | .shiftout n => some n
  | .shiftin n => some n
  | .accclr n => some n
  | _ => none

/-- A word completes for every thread of a set. -/
def State.finishAll (s : State) (ts : List Thread) : State :=
  match ts with
  | [] => s
  | t :: rest => State.finishAll (s.finish t.uid) rest

/-- A command enters the matrix queue, after what its threads' fences name and the copies that hold its
slot (R278, R321, R368). -/
def State.queueMatrix (s : State) (t : Thread) (ts : List Thread) (k : MKind) : State :=
  let i := s.nextId
  let clk := s.engineClock ts .m i
  let held := match k.slot? with
    | none => []
    | some n => s.slotCopies t.member n
  let c : MCmd := ⟨i, ts.map (·.uid), s.crewFor t, t.member, t.pc, k, fencedAll ts .m ++ held, clk⟩
  let s := { s with nextId := s.nextId + 1 }
  let s := s.modCore t.core fun x => { x with mq := x.mq ++ [c] }
  (s.noteIssued ts .m clk).finishAll ts

/-- The lowest lane of the set, whose operands count (R276). -/
def lowestLane (t : Thread) (ts : List Thread) : Thread := ts.headD t

/-- The checks of a joint word pass, or every thread of its lane set can take their trap: one that the trap would end in
its bent waits for the results due to its lane, and the others with it (R187, R276, R424). -/
def State.lanesTrap (s : State) (t : Thread) (i : Instr) (cause : State → Member → Thread → Option (Nat × DWord)) :
    Bool :=
  let ts := s.laneSet t i
  let l := lowestLane t ts
  match s.member? l.member with
  | none => true
  | some m => (cause s m l).isNone || !ts.any fun x => s.trapHeld x.uid

/-- A joint issue of the matrix majors: the checks give a cause for every thread, or the effect follows
(R276). -/
def jointWord (i : Instr) (s : State) (queued : Bool) (cause : State → Member → Thread → Option (Nat × DWord))
    (effect : State → Member → Thread → List Thread → State) : Host.Outcome State Fault Refusal :=
  issueJoint i s (fun s t => (!queued || s.mqRoom t) && s.lanesTrap t i cause) fun s t ts =>
    let l := lowestLane t ts
    match s.member? l.member with
    | none => s
    | some m =>
      match cause s m l with
      | some (c, x) => s.trapEach ts c x
      | none => effect s m l ts

/-- A tile number is at or above the declared count (R275). -/
def tileCause (m : Member) (t : Nat) : Option (Nat × DWord) :=
  if m.desc.tiles ≤ t then some (0x0C0, BitVec.ofNat 64 t) else none
/-- A slot number is at or above the declared count (R275). -/
def slotCause (m : Member) (k : Nat) : Option (Nat × DWord) :=
  if m.desc.acc ≤ k then some (0x0C1, BitVec.ofNat 64 k) else none
/-- The issuer does not own the array (R277). -/
def State.ownerCause (s : State) (t : Thread) : Option (Nat × DWord) :=
  if s.ownsArray t then none else some (0x0C5, 0)

/-- R286: MCFG. -/
def execMcfg (d : BitVec 5) (a b : Name) (s : State) : Host.Outcome State Fault Refusal :=
  jointWord (.mcfg d a b) s false
    (fun s m t => (tileCause m d.toNat).or (mcfgCause m d.toNat (s.name t a) (s.name t b)))
    fun s m t ts =>
      let w0 := s.name t a
      let w1 := s.name t b
      (s.modMember m.id fun x => { x with
        tcfg := Map.set x.tcfg d.toNat w0, tband := Map.set x.tband d.toNat w1 }).finishAll ts

/-- A register result goes to every lane of the set (R276). -/
def State.pairEach (s : State) (ts : List Thread) (d : Name) (v : DWord) : State :=
  match ts with
  | [] => s
  | t :: rest => State.pairEach (s.resultPair t d v) rest d v
/-- A word result goes to every lane of the set. -/
def State.resultEach (s : State) (ts : List Thread) (d : Name) (v : Word) : State :=
  match ts with
  | [] => s
  | t :: rest => State.resultEach (s.result t d v) rest d v

/-- R286: MRDC. -/
def execMrdc (d : Name) (a : BitVec 5) (s : State) : Host.Outcome State Fault Refusal :=
  jointWord (.mrdc d a) s false (fun _ m _ => tileCause m a.toNat)
    fun s m _ ts =>
      let c := m.tileCfg a.toNat
      s.pairEach ts d (pairWord c.word0 c.word1)

/-- The checks of MLD and MST (R287). -/
def State.tileMoveCause (s : State) (m : Member) (t : Thread) (d : BitVec 5) (a b : Name) :
    Option (Nat × DWord) :=
  let c := m.tileCfg d.toNat
  let o := (s.name t a).toNat
  let p := (loWord (s.pair t b)).toNat
  let w := hiWord (s.pair t b)
  if cfgFmt c.word0 = 0 then some (0x0C3, BitVec.ofNat 64 d.toNat)
  else if o % 8 ≠ 0 ∨ p % 8 ≠ 0 ∨ ¬(barrierWord w).1 then some (0x0C7, BitVec.ofNat 64 o)
  else if m.scratchBytes < o + (cfgRows c.word0 - 1) * p + cfgRowBytes c.word0 then
    some (0x082, localBase + BitVec.ofNat 64 o)
  else none

/-- MLD and MST (R287). -/
def tileMove (i : Instr) (d : BitVec 5) (a b : Name)
    (k : TileCfg → Nat → Nat → Word → MKind) (s : State) : Host.Outcome State Fault Refusal :=
  jointWord i s true
    (fun s m t => (tileCause m d.toNat).or (s.tileMoveCause m t d a b))
    fun s m t ts => s.queueMatrix t ts
      (k (m.tileCfg d.toNat) (s.name t a).toNat (loWord (s.pair t b)).toNat (hiWord (s.pair t b)))

/-- R287: MLD. -/
def execMld (d : BitVec 5) (a b : Name) (s : State) : Host.Outcome State Fault Refusal :=
  tileMove (.mld d a b) d a b .mld s
/-- R287: MST. -/
def execMst (d : BitVec 5) (a b : Name) (s : State) : Host.Outcome State Fault Refusal :=
  tileMove (.mst d a b) d a b .mst s

/-- R288: MACQ. -/
def execMacq (d : Name) (s : State) : Host.Outcome State Fault Refusal :=
  jointWord (.macq d) s false
    (fun _ m _ => if m.desc.flags % 2 = 0 then some (0x0C6, 0) else none)
    fun s _ t ts =>
      if (s.core t.core).owner = none ∨ s.ownsArray t then
        (s.modCore t.core fun x => { x with owner := some (s.crewFor t) }).resultEach ts d 1
      else s.resultEach ts d 0

/-- R289: MREL. -/
def execMrel (s : State) : Host.Outcome State Fault Refusal :=
  jointWord .mrel s false (fun s _ t => s.ownerCause t)
    fun s _ t ts => (s.modCore t.core fun x => { x with owner := none }).finishAll ts

/-- Elements of a step of MMA for two format codes that pair, 0 when they do not (R291). -/
def mmaStep (fa fb : Nat) : Nat :=
  match fa, fb with
  | 1, 1 => 1
  | 2, 2 => 1
  | 3, 3 => 2
  | 3, 4 => 2
  | 4, 3 => 2
  | 4, 4 => 2
  | 5, 5 => 2
  | 6, 6 => 8
  | _, _ => 0

/-- The partner of an E2M1 tile cannot scale it (R291). -/
def partnerBad (w p : Word) : Bool :=
  cfgFmt p != 7 || decide (cfgRows p < cfgRows w) || decide (cfgCols p < cfgCols w / 8)

/-- The checks of MMA (R291). -/
def Member.mmaCause (m : Member) (ta tb : Nat) : Option (Nat × DWord) :=
  let a := (m.tileCfg ta).word0
  let b := (m.tileCfg tb).word0
  let step := mmaStep (cfgFmt a) (cfgFmt b)
  if cfgFmt a = 0 then some (0x0C3, BitVec.ofNat 64 ta)
  else if cfgFmt b = 0 then some (0x0C3, BitVec.ofNat 64 tb)
  else if step == 0 || cfgCols a != cfgCols b || decide (cfgRows b < 8) ||
      (step == 8 && (partnerBad a (Map.get m.tcfg (cfgPartner a)) ||
        partnerBad b (Map.get m.tcfg (cfgPartner b)))) then
    some (0x0C4, BitVec.ofNat 64 (ta * 256 + tb))
  else none

/-- The row mask of a lane set (R291). -/
def rowMask (ts : List Thread) : BitVec 64 :=
  ts.foldl (fun m t => m ||| (3#64 <<< (2 * (t.lane % 32)))) 0

/-- R291: MMA. -/
def execMma (a b : BitVec 5) (s : State) : Host.Outcome State Fault Refusal :=
  jointWord (.mma a b) s true
    (fun s m t => (((tileCause m a.toNat).or (tileCause m b.toNat)).or (s.ownerCause t)).or
      (m.mmaCause a.toNat b.toNat))
    fun s m t ts =>
      let x := m.tileCfg a.toNat
      let y := m.tileCfg b.toNat
      s.queueMatrix t ts (.mma x y (m.tileCfg (cfgPartner x.word0)) (m.tileCfg (cfgPartner y.word0))
        (rowMask ts))

/-- R290: MZERO. -/
def execMzero (s : State) : Host.Outcome State Fault Refusal :=
  jointWord .mzero s true (fun s _ t => s.ownerCause t) fun s _ t ts => s.queueMatrix t ts .mzero
/-- R292: SHIFTOUT. -/
def execShiftout (d : BitVec 6) (s : State) : Host.Outcome State Fault Refusal :=
  jointWord (.shiftout d) s true (fun s m t => (slotCause m d.toNat).or (s.ownerCause t))
    fun s _ t ts => s.queueMatrix t ts (.shiftout d.toNat)
/-- R292: SHIFTIN. -/
def execShiftin (d : BitVec 6) (s : State) : Host.Outcome State Fault Refusal :=
  jointWord (.shiftin d) s true (fun s m t => (slotCause m d.toNat).or (s.ownerCause t))
    fun s _ t ts => s.queueMatrix t ts (.shiftin d.toNat)
/-- R292: ACCCLR. -/
def execAccclr (d : BitVec 6) (s : State) : Host.Outcome State Fault Refusal :=
  jointWord (.accclr d) s true (fun _ m _ => slotCause m d.toNat)
    fun s _ t ts => s.queueMatrix t ts (.accclr d.toNat)

/-! ## Drains (R293 to R295) -/

/-- Columns drained. -/
def drainCols (c : Word) : Nat := 8 * ((c.extractLsb' 24 3).toNat + 1)
/-- Rows drained. -/
def drainRows (c : Word) : Nat := (c.extractLsb' 16 6).toNat + 1
/-- Element row pitch. -/
def drainPitch (c : Word) : Nat := (c.extractLsb' 0 16).toNat
/-- Bytes of an element row (R293). -/
def drainRowBytes (f : DrainFmt) (c : Word) : Nat :=
  match f with
  | .bf16 => drainCols c * 2
  | .e2m1 => drainCols c / 2
  | _ => drainCols c
/-- Bytes of the scale region (R293). -/
def drainScaleBytes (c : Word) : Nat := 8 * drainRows c + 2

/-- The cause that the first and last byte of a region give under R202, with the address. -/
def State.edgeCause (s : State) (m : Member) (addr : DWord) (n : Nat) : Option (Nat × DWord) :=
  let last := addr + BitVec.ofNat 64 (n - 1)
  match s.target m addr 1, s.target m last 1 with
  | .error c, _ => some (c, addr)
  | _, .error c => some (c, last)
  | _, _ => none

/-- The checks of DRAINQ at issue (R293). -/
def State.drainCause (s : State) (m : Member) (f : DrainFmt) (dest scale : DWord) (c w : Word) :
    Option (Nat × DWord) :=
  if c.extractLsb' 27 5 != 0 || c.extractLsb' 22 2 != 0 || drainPitch c % 4 != 0 || dest.toNat % 4 != 0 ||
      (f == .e2m1 && scale.toNat % 8 != 0) || !(barrierWord w).1 then some (0x0C7, c.setWidth 64)
  else
    (s.edgeCause m dest ((drainRows c - 1) * drainPitch c + drainRowBytes f c)).or
      (if f = .e2m1 then s.edgeCause m scale (drainScaleBytes c) else none)

/-- The pair at names b and b + 1 of a block. -/
def State.blockPair (s : State) (t : Thread) (b : Name) : DWord :=
  pairWord (s.name t b) (s.name t (nameAt b 1))

/-- R293: DRAINQ of a format. -/
def drain (i : Instr) (f : DrainFmt) (d a b : Name) (s : State) : Host.Outcome State Fault Refusal :=
  jointWord i s true
    (fun s m t => (s.ownerCause t).or (s.drainCause m f (s.pair t a) (s.blockPair t b)
      (s.name t (nameAt b 2)) (s.name t (nameAt b 3))))
    fun s _ t ts => s.queueMatrix t ts (.drainq f (s.pair t a) (s.blockPair t b) (s.name t d)
      (s.name t (nameAt b 2)) (s.name t (nameAt b 3)))

/-- R294: DRAINQ.bf16. -/
def execDrainqBf16 (d a b : Name) (s : State) : Host.Outcome State Fault Refusal :=
  drain (.drainqBf16 d a b) .bf16 d a b s
/-- R294: DRAINQ.e4m3. -/
def execDrainqE4m3 (d a b : Name) (s : State) : Host.Outcome State Fault Refusal :=
  drain (.drainqE4m3 d a b) .e4m3 d a b s
/-- R294: DRAINQ.e5m2. -/
def execDrainqE5m2 (d a b : Name) (s : State) : Host.Outcome State Fault Refusal :=
  drain (.drainqE5m2 d a b) .e5m2 d a b s
/-- R295: DRAINQ.e2m1. -/
def execDrainqE2m1 (d a b : Name) (s : State) : Host.Outcome State Fault Refusal :=
  drain (.drainqE2m1 d a b) .e2m1 d a b s

/-- Cell (i, j) of the array. -/
def Core.cell (c : Core) (i j : Nat) : Word := Map.get c.cells (64 * i + j)

/-- The drained values y := x × m by rows (R294). -/
def drained (c : Core) (mult config : Word) : List (List FVal) :=
  (List.range (drainRows config)).map fun i =>
    (List.range (drainCols config)).map fun j => (f32 (c.cell i j)).mul (f32 mult)

/-- The magnitude of a finite value, zero for others. -/
def FVal.finMag (x : FVal) : FVal :=
  match x with
  | .fin _ a b => .fin false a b
  | _ => .fin false 0 1

/-- The largest finite magnitude of some values, zero for none (R295). -/
def maxMag (xs : List FVal) : FVal :=
  xs.foldl (fun m x => if m.lt x.finMag then x.finMag else m) (.fin false 0 1)

/-- The band scale of a rectangle (R295). -/
def drainBand (rows : List (List FVal)) : Nat :=
  match maxMag (rows.flatMap id) with
  | .fin _ 0 _ => 0x3F80
  | x => Nat.min (bf16.round .ru false (x.div (.fin false 189 1))).1 bf16.maxCode

/-- The scale of a block of 8 columns (R295, R265). -/
def drainScale (band : Nat) (xs : List FVal) : Nat :=
  (e3m5.round .ru false ((maxMag xs).div (FVal.mul (.fin false 6 1) (bf16.value band)))).1

/-- An element of `.e2m1` (R295). -/
def drainFp4 (band scale : Nat) (y : FVal) : Nat :=
  match y with
  | .nan => 0
  | .inf neg => if neg then 15 else 7
  | .fin _ num _ =>
    if scale = 0 ∨ num = 0 then 0
    else (e2m1.round .rn true (y.div (FVal.mul (e3m5.value scale) (bf16.value band)))).1

/-- A number of packed elements of w bits, element 0 lowest (R242). -/
def packElems (w : Nat) (xs : List Nat) : Nat :=
  match xs with
  | [] => 0
  | x :: rest => x % 2 ^ w + 2 ^ w * packElems w rest

/-- Blocks of 8 of a list. -/
def blocks8 (n : Nat) (xs : List FVal) : List (List FVal) :=
  (List.range n).map fun b => (xs.drop (8 * b)).take 8

/-- What a row of a block-scaled drain writes: its elements and its scales (R295). -/
def fp4Row (cols band : Nat) (xs : List FVal) : List Byte × List Byte :=
  let bs := blocks8 (cols / 8) xs
  let scales := bs.map (drainScale band)
  let elems := bs.flatMap fun b => b.map fun y => drainFp4 band (drainScale band b) y
  (leBytes (cols / 2) (packElems 4 elems), leBytes 8 (packElems 8 scales))

/-- The writes of a drain in order: address and bytes (R294, R295). -/
def drainWrites (c : Core) (f : DrainFmt) (dest scale : DWord) (mult config : Word) :
    List (DWord × List Byte) :=
  let rows := drained c mult config
  let cols := drainCols config
  let at_ (i : Nat) : DWord := dest + BitVec.ofNat 64 (i * drainPitch config)
  let one (k : Fmt) (w : Nat) (sat : Bool) : List (DWord × List Byte) :=
    rows.zipIdx.map fun (xs, i) =>
      (at_ i, leBytes (cols * w / 8) (packElems w (xs.map fun y => (k.round .rn sat y).1)))
  match f with
  | .bf16 => one bf16 16 false
  | .e4m3 => one e4m3 8 true
  | .e5m2 => one e5m2 8 true
  | .e2m1 =>
    let band := drainBand rows
    (rows.zipIdx.flatMap fun (xs, i) =>
      let r := fp4Row cols band xs
      [(at_ i, r.1), (scale + BitVec.ofNat 64 (8 * i), r.2)]) ++
    [(scale + BitVec.ofNat 64 (8 * rows.length), leBytes 2 band)]

/-- The cells of a drained rectangle become zero (R293). -/
def drainClear (cells : Map 32) (config : Word) : Map 32 :=
  cells.filter fun x =>
    !(decide (x.1 / 64 < drainRows config) && decide (x.1 % 64 < drainCols config))

/-! ## The matrix step (R250, R251) -/

/-- The format of a floating code of R273. -/
def tileFmt (fmt : Nat) : Fmt :=
  match fmt with
  | 1 => bf16
  | 2 => fp16
  | 3 => e4m3
  | 4 => e5m2
  | 6 => e2m1
  | _ => e3m5

/-- Element c of a row of a floating tile, zero past its columns (R250). -/
def floatElem (w row c : Nat) (cols : Nat) : FVal :=
  if c < cols then (tileFmt w).value (rowElem w row c) else .fin false 0 1

/-- The exact sum of n products from element k (R250, R251). -/
def groupSum (fa fb rowA rowB cols k n : Nat) : FVal :=
  match n with
  | 0 => .fin false 0 1
  | 1 => (floatElem fa rowA k cols).mul (floatElem fb rowB k cols)
  | n + 1 => (groupSum fa fb rowA rowB cols k n).add .rn
      ((floatElem fa rowA (k + n) cols).mul (floatElem fb rowB (k + n) cols))

/-- Element c of a row of an INT8 tile, zero past its columns. -/
def intElem (row c cols : Nat) : Word :=
  if c < cols then (BitVec.ofNat 8 (rowElem 5 row c)).signExtend 32 else 0

/-- What an MMA reads for one cell: the row bits of A and B and of their partners. -/
structure CellRows where
  a : Nat
  b : Nat
  sa : Nat
  sb : Nat
  deriving DecidableEq, Repr

/-- Step number k of a cell (R250). -/
def cellStep (x y : TileCfg) (r : CellRows) (acc : Word) (k : Nat) : Word :=
  let fa := cfgFmt x.word0
  let fb := cfgFmt y.word0
  let cols := cfgCols x.word0
  if fa = 5 then
    acc + intElem r.a (2 * k) cols * intElem r.b (2 * k) cols +
      intElem r.a (2 * k + 1) cols * intElem r.b (2 * k + 1) cols
  else
    let n := mmaStep fa fb
    let g := groupSum fa fb r.a r.b cols (n * k) n
    let band (w : Word) : FVal := bf16.value (w.toNat % 65536)
    let g := if fa = 6 then
        (((g.mul (e3m5.value (rowElem 7 r.sa k))).mul (e3m5.value (rowElem 7 r.sb k))).mul
          (band x.word1)).mul (band y.word1)
      else g
    toF32 .rn ((f32 acc).add .rn g)

/-- The steps of an MMA (R250). -/
def mmaSteps (x y : TileCfg) : Nat :=
  let n := mmaStep (cfgFmt x.word0) (cfgFmt y.word0)
  (cfgCols x.word0 + n - 1) / n

/-- The cycles of an MMA after its fill: K / 4 for E2M1, else one for each step (R291). -/
def mmaCycles (x y : TileCfg) : Nat :=
  if mmaStep (cfgFmt x.word0) (cfgFmt y.word0) = 8 then cfgCols x.word0 / 4 else mmaSteps x y

/-- One cell after all its steps. -/
def cellMma (m : Member) (x y px py : TileCfg) (acc : Word) (i j : Nat) : Word :=
  let r : CellRows := ⟨m.tileRow x.tile i, m.tileRow y.tile j, m.tileRow px.tile i, m.tileRow py.tile j⟩
  (List.range (mmaSteps x y)).foldl (cellStep x y r) acc

/-- The cells after an MMA (R291): those of the row mask below A's rows and B's rows. -/
def mmaCells (m : Member) (c : Core) (x y px py : TileCfg) (rows : BitVec 64) : Map 32 :=
  let is := (List.range (cfgRows x.word0)).filter fun i => rows.getLsbD i
  (is.flatMap fun i => (List.range (cfgRows y.word0)).map fun j => (i, j)).foldl
    (fun cells (i, j) => Map.set cells (64 * i + j) (cellMma m x y px py (c.cell i j) i j)) c.cells

/-! ## Execution in queue order (R278) -/

/-- The core and command that a number names, when the command is at the head of its queue and what it
is ordered after is complete. -/
def State.headCmd (s : State) (i : Nat) : Option (Core × MCmd × Member) :=
  match s.cores.find? fun c => (c.mq.head?.map (·.id)) == some i with
  | none => none
  | some c =>
    match c.mq with
    | [] => none
    | q :: _ => if s.allDone q.after && s.settled (Clock.join c.mclk q.clk) then (s.member? q.member).map fun m => (c, q, m) else none

/-- The clock of a command's accesses: its own with those of the commands before it in the queue. -/
def cmdClock (c : Core) (q : MCmd) : Clock := Clock.join c.mclk q.clk

/-- Who makes a matrix command's accesses. -/
def matrixActor (c : Core) (q : MCmd) : Actor := ⟨agentC q.id, cmdClock c q, q.member, c.id, .m⟩

/-- The cells that an MMA works into: its row mask, its rows and its columns (R291). -/
def MKind.cells? (k : MKind) : Option (BitVec 64 × Nat × Nat) :=
  match k with
  | .mma x y _ _ rows => some (rows, cfgRows x.word0, cfgRows y.word0)
  | _ => none

/-- The command that streams behind the head of a queue, without a new fill: an MMA into the same cells that stands
directly behind it and waits for nothing (R291) (DESIGN CHOICE 90). -/
def State.streamsNext (s : State) (mq : List MCmd) : Option Nat :=
  match mq with
  | q :: n :: _ =>
    if q.kind.cells?.isSome && n.kind.cells? == q.kind.cells? && n.crew == q.crew && s.allDone n.after then some n.id
    else none
  | _ => none

/-- The cycles in which the array executes a command; an MMA that streams behind another has no fill (R290 to R293,
R476). -/
def arrayCycles (streams : Bool) (k : MKind) : Nat :=
  match k with
  | .mma x y _ _ _ => (if streams then 0 else 64) + mmaCycles x y
  | .mzero => 64
  | .shiftout _ => 64
  | .shiftin _ => 64
  | .drainq _ _ _ _ c _ => drainRows c
  | _ => 0

/-- The array use of a command is charged (R476). -/
def State.chargeArray (s : State) (c : Core) (q : MCmd) : State :=
  s.chargeMember q.member { Usage.zero with cells := 4096 * arrayCycles (c.stream == some q.id) q.kind }

/-- A command leaves the queue: its array use is charged, and its accesses are done for the commands after it and
for those who issued it (R278, R355, R476). -/
def State.endCmd (s : State) (c : Core) (q : MCmd) : State :=
  let next := s.streamsNext c.mq
  ((s.modCore c.id fun x => { x with mq := x.mq.drop 1, mclk := cmdClock c q, stream := next }).chargeArray c q).endsCommand
    q.id q.crew q.member q.uids .m (cmdClock c q)

/-- The arrival of a command of a crew at the local barrier its word names (R281, R306); its 16 bytes are updated
wherever they lie (DESIGN CHOICE 109). -/
def State.cmdArrival (s : State) (id crew member : Nat) (w : Word) (bytes moved : Nat) (error : Option Nat)
    (clk : Clock) : State :=
  match (barrierWord w).2 with
  | none => s
  | some off => s.sendArrival id crew ⟨member + 1, off⟩ bytes moved error clk

/-- The rows of an MLD or MST in pieces (R287). -/
def tileRows (write : Bool) (t : TileCfg) (off pitch : Nat) : List (List Piece) :=
  (List.range (cfgRows t.word0)).map fun r =>
    piecesOf write (localBase + BitVec.ofNat 64 (off + r * pitch)) (cfgRowBytes t.word0)

/-- Loads rows of a tile from row `r` on (R287). -/
def State.loadRows (s : State) (a : Actor) (tile r : Nat) (rows : List (List Piece)) : State :=
  match rows with
  | [] => s
  | ps :: rest =>
    let (s, bs) := s.readPieces a ps
    let s := s.modMember a.member fun m =>
      { m with tiles := Map.putBytes m.tiles (tile * tileBytes + 128 * r) bs }
    State.loadRows s a tile (r + 1) rest

/-- The writes of an MST in order: address and bytes (R287). -/
def Member.tileWrites (m : Member) (t : TileCfg) (off pitch : Nat) : List (DWord × List Byte) :=
  (List.range (cfgRows t.word0)).map fun r =>
    (localBase + BitVec.ofNat 64 (off + r * pitch), leBytes (cfgRowBytes t.word0) (m.tileRow t.tile r))

/-- Makes writes in order. -/
def State.writeEach (s : State) (a : Actor) (ws : List (DWord × List Byte)) : State :=
  match ws with
  | [] => s
  | w :: rest => State.writeEach (s.writePieces a (piecesOf true w.1 w.2.length) w.2) a rest

/-- The bytes of some writes. -/
def writeBytes (ws : List (DWord × List Byte)) : Nat := (ws.map fun w => w.2.length).foldl (· + ·) 0

/-- A row lies in the scratchpad of the issuing member, where the command's barrier stands (R303). -/
def State.ownRow (s : State) (m : Member) (addr : DWord) : Bool :=
  match s.target m addr 1 with
  | .ok (.scratch o _) => o.id == m.id
  | _ => false

/-- The writes in order of a command that writes memory: an MST's rows, a drain's (R287, R293). -/
def MKind.writes (k : MKind) (c : Core) (m : Member) : List (DWord × List Byte) :=
  match k with
  | .mst t off pitch _ => m.tileWrites t off pitch
  | .drainq f d sc mult cfg _ => drainWrites c f d sc mult cfg
  | .landing _ ws _ => ws
  | _ => []

/-- The rows in pieces of a command that reaches memory; none for the others. -/
def MKind.rows (k : MKind) (c : Core) (m : Member) : List (List Piece) :=
  match k with
  | .mld t off pitch _ => tileRows false t off pitch
  | k => (k.writes c m).map fun w => piecesOf true w.1 w.2.length

/-- The cells that a command leaves: a drain sets its rectangle to zero (R293). -/
def MKind.cellsLeft (k : MKind) (cells : Map 32) : Map 32 :=
  match k with
  | .drainq _ _ _ _ cfg _ => drainClear cells cfg
  | _ => cells

/-- What a command that reaches memory does, with some of its rows moved: the state, the bytes it names,
the bytes moved into its barrier's scratchpad (R287, R293, R303). -/
def State.moveRows (s : State) (c : Core) (q : MCmd) (m : Member) (keep : List Bool) : State × Nat × Nat :=
  let a := matrixActor c q
  match q.kind with
  | .mld t off pitch _ =>
    let s := s.modMember m.id fun x => { x with tiles := Map.clear x.tiles (t.tile * tileBytes) tileBytes }
    (s.loadRows a t.tile 0 (picked keep (tileRows false t off pitch)), cfgRows t.word0 * cfgRowBytes t.word0, 0)
  | k =>
    let ws := k.writes c m
    let s := s.modCore c.id fun x => { x with cells := k.cellsLeft x.cells }
    (s.writeEach a (picked keep ws), writeBytes ws, writeBytes ((picked keep ws).filter fun w => s.ownRow m w.1))

/-- The barrier word of a command. -/
def MKind.bar (k : MKind) : Word :=
  match k with
  | .mld _ _ _ w => w
  | .mst _ _ _ w => w
  | .drainq _ _ _ _ _ w => w
  | .landing _ _ w => w
  | _ => 0

/-- Word b + 3 of a command, for its progress record: a DRAINQ's barrier word; MLD and MST have none
(R316) (DEDUCED 59). -/
def MKind.shape (k : MKind) : Word :=
  match k with
  | .drainq _ _ _ _ _ w => w
  | .landing true _ w => w
  | _ => 0

/-- The class 3 cause of a matrix command that a memory failure ends: another member's dry-fit slot gives
0x0D9 (R282, R404). -/
def matrixCause (under : Nat) : Nat := if under = 0x092 then 0x0D9 else 0x0C8

/-- The rows that a command discarded are reported: one error update at the issuer's barrier and one cause
with a progress record (R302). -/
def State.reportLost (s : State) (c : Core) (q : MCmd) (h : Haul) : State :=
  match h.lost with
  | none => s
  | some (pos, addr, rows, bytes) =>
    (s.cmdArrival q.id q.crew q.member q.kind.bar 0 0 (some 0x0DA) (cmdClock c q)).deliver q.member q.crew
      (q.uids.headD 0) ⟨0x0DA, addr, some ⟨0x0DA, 0, q.pc, addr, rows, bytes, q.kind.shape, pos⟩, false⟩

/-- A command that ends by a failure delivers its cause with the progress record (R282, R316, R432). -/
def State.reportFail (s : State) (q : MCmd) (h : Haul) : State :=
  match h.fail with
  | none => s
  | some (under, addr) =>
    let r : Progress :=
      ⟨matrixCause under, under, q.pc, addr, h.sent.length, sentBytes h.sent, q.kind.shape, 0⟩
    s.deliver q.member q.crew (q.uids.headD 0) ⟨matrixCause under, addr, some r, false⟩

/-- A command that reaches memory moves its rows, leaves the queue and arrives with its whole byte count;
then what it discarded and what ended it are reported (R282, R287, R293, R302, R306). -/
def State.runHaul (s : State) (c : Core) (q : MCmd) (m : Member) (h : Haul) : State :=
  let (s, bytes, moved) := s.moveRows c q m h.keep
  (((s.endCmd c q).cmdArrival q.id q.crew m.id q.kind.bar bytes moved (h.fail.map (·.1)) (cmdClock c q)).reportLost
    c q h).reportFail q h

/-- The rows of a command are about to move (R282). -/
def State.haulOf (s : State) (c : Core) (q : MCmd) (m : Member) : Except Check Haul :=
  s.haul m.id (q.kind.rows c m) ⟨[], [], none, none⟩

/-- Executes the command named by the input when it heads its queue and is of the event's kind: a fill or
page that it needs comes first (R278, R282). -/
def executeMove (is : MKind → Bool) (s : State) : Host.Outcome State Fault Refusal :=
  match s.input with
  | .id i =>
    match s.headCmd i with
    | none => .next s
    | some (c, q, m) =>
      if !is q.kind then .next s
      else match s.haulOf c q m with
        | .error w => .next (s.waitOn m.part (matrixActor c q) w)
        | .ok h => if h.fail.isNone then .next (s.runHaul c q m h) else .next s
  | _ => .next s

/-- The command is an MLD. -/
def MKind.isMld (k : MKind) : Bool :=
  match k with
  | .mld _ _ _ _ => true
  | _ => false
/-- The command is an MST. -/
def MKind.isMst (k : MKind) : Bool :=
  match k with
  | .mst _ _ _ _ => true
  | .landing false _ _ => true
  | _ => false
/-- The command is a DRAINQ. -/
def MKind.isDrain (k : MKind) : Bool :=
  match k with
  | .drainq _ _ _ _ _ _ => true
  | .landing true _ _ => true
  | _ => false

/-- MLD_EXECUTE (R287). -/
def execMldExecute (s : State) : Host.Outcome State Fault Refusal := executeMove MKind.isMld s
/-- MST_EXECUTE (R287). -/
def execMstExecute (s : State) : Host.Outcome State Fault Refusal := executeMove MKind.isMst s
/-- DRAINQ_EXECUTE (R293). -/
def execDrainqExecute (s : State) : Host.Outcome State Fault Refusal := executeMove MKind.isDrain s

/-- MATRIX_COMMAND_FAILURE (R282): the head command named by the input meets a memory failure. -/
def execMatrixCommandFailure (s : State) : Host.Outcome State Fault Refusal :=
  match s.input with
  | .id i =>
    match s.headCmd i with
    | none => .next s
    | some (c, q, m) =>
      match s.haulOf c q m with
      | .error _ => .next s
      | .ok h => if h.fail.isSome then .next (s.runHaul c q m h) else .next s
  | _ => .next s

/-! ## What a saved member leaves in the queue (R283, R428) -/

/-- Every queued command of a member has finished with its tiles, slots and cells, but for what an MST or a
DRAINQ reads of them when the member is saved. -/
def State.cellsDone (s : State) (m : Member) : Bool :=
  (s.core m.core).mq.all fun q => q.member != m.id || q.kind.isMst || q.kind.isDrain

/-- A queued MST or DRAINQ reads its tile or cells; its writes go on landing under diversion (R283). -/
def State.capture (s : State) (m : Member) (q : MCmd) : State :=
  match q.kind with
  | .landing _ _ _ => s
  | k =>
    let ws := k.writes (s.core m.core) m
    (s.modCore m.core fun c => { c with
      cells := k.cellsLeft c.cells
      mq := updateIf c.mq (fun x => x.id == q.id) fun x => { x with kind := .landing k.isDrain ws k.bar } }).chargeArray (s.core m.core) q

/-- The queued commands of a member are captured in order. -/
def State.captureAll (s : State) (m : Member) (qs : List MCmd) : State :=
  match qs with
  | [] => s
  | q :: rest => State.captureAll (s.capture m q) m rest

/-- Executes a command of the array that reaches no memory. -/
def executeArray (s : State) (f : MKind → Core → Member → Option (Core × Member)) :
    Host.Outcome State Fault Refusal :=
  match s.input with
  | .id i =>
    match s.headCmd i with
    | none => .next s
    | some (c, q, m) =>
      match f q.kind c m with
      | none => .next s
      | some (x, y) =>
        let s := s.modCore c.id fun k => { k with cells := x.cells }
        .next ((s.modMember m.id fun z => { z with accs := y.accs }).endCmd c q)
  | _ => .next s

/-- MMA_EXECUTE (R291). -/
def execMmaExecute (s : State) : Host.Outcome State Fault Refusal :=
  executeArray s fun k c m => match k with
    | .mma x y px py rows => some ({ c with cells := mmaCells m c x y px py rows }, m)
    | _ => none
/-- MZERO_EXECUTE (R290). -/
def execMzeroExecute (s : State) : Host.Outcome State Fault Refusal :=
  executeArray s fun k c m => match k with
    | .mzero => some ({ c with cells := [] }, m)
    | _ => none
/-- Elements of an accumulator slot. -/
def slotCells : Nat := 4096
/-- A slot takes the values of the cells (R292). -/
def slotFrom (accs : Map 32) (n : Nat) (cells : Map 32) : Map 32 :=
  cells.foldl (fun a x => Map.set a (n * slotCells + x.1) x.2) (Map.clear accs (n * slotCells) slotCells)
/-- The cells take the values of a slot (R292). -/
def cellsFrom (accs : Map 32) (n : Nat) : Map 32 :=
  (accs.filter fun x => x.1 / slotCells == n).map fun x => (x.1 % slotCells, x.2)

/-- SHIFTOUT_EXECUTE (R292). -/
def execShiftoutExecute (s : State) : Host.Outcome State Fault Refusal :=
  executeArray s fun k c m => match k with
    | .shiftout n => some ({ c with cells := [] }, { m with accs := slotFrom m.accs n c.cells })
    | _ => none
/-- SHIFTIN_EXECUTE (R292). -/
def execShiftinExecute (s : State) : Host.Outcome State Fault Refusal :=
  executeArray s fun k c m => match k with
    | .shiftin n => some ({ c with cells := cellsFrom m.accs n }, m)
    | _ => none
/-- ACCCLR_EXECUTE (R292). -/
def execAccclrExecute (s : State) : Host.Outcome State Fault Refusal :=
  executeArray s fun k c m => match k with
    | .accclr n => some (c, { m with accs := Map.clear m.accs (n * slotCells) slotCells })
    | _ => none

end Sys2Proof.Machine
end

