-- ==== Sys2Proof/Machine/Copies.lean ====
section
/-! DEFINITION. Copy commands (spec/14_async_copies.md R297 to R302, R316 to R322), the static schedule
(R308, R325) and the barrier instructions (R323, R324). -/
namespace Sys2Proof.Machine

open Sys2Proof

/-! ## Shapes (R298) -/

/-- A shape block; the pitches are in bytes. -/
structure Shape where
  rowbytes : Nat
  rows : Nat
  sel : Nat
  spitch : Nat
  dpitch : Nat
  arrive : Bool
  done : Bool
  joint : Bool
  ring : Bool
  ringno : Nat
  offset : Nat
  word : Word
  deriving DecidableEq, Repr

/-- A pitch in 64-byte units; 0 means the row bytes (R298). -/
def pitchOf (units rowbytes : Nat) : Nat := if units = 0 then rowbytes else units * 64

/-- The shape in four words (R298). -/
def shapeOf (w0 w1 w2 w3 : Word) : Shape where
  rowbytes := w0.toNat
  rows := (w1.extractLsb' 0 16).toNat
  sel := (w1.extractLsb' 16 16).toNat
  spitch := pitchOf (w2.extractLsb' 16 16).toNat w0.toNat
  dpitch := pitchOf (w2.extractLsb' 0 16).toNat w0.toNat
  arrive := w3.getLsbD 31
  done := w3.getLsbD 30
  joint := w3.getLsbD 29
  ring := w3.getLsbD 28
  ringno := (w3.extractLsb' 24 4).toNat
  offset := (w3.extractLsb' 0 24).toNat
  word := w3

/-- The shape block that a word names. -/
def State.shape (s : State) (t : Thread) (b : Name) : Shape :=
  shapeOf (s.name t b) (s.name t (nameAt b 1)) (s.name t (nameAt b 2)) (s.name t (nameAt b 3))

/-- The shape checks that CPY, CPYM and CPYN share (R319). -/
def Shape.bad (p : Shape) : Bool :=
  p.rowbytes == 0 || decide (2 ^ 24 < p.rowbytes) || p.rows == 0 || (!p.arrive && p.offset != 0) ||
    p.offset % 16 != 0 || (!p.ring && p.ringno != 0)

/-- Bytes from the first to the last byte of a region of rows. -/
def regionBytes (rows pitch rowbytes : Nat) : Nat := (rows - 1) * pitch + rowbytes

/-- The member whose scratchpad holds the barrier of a command with this destination, and the address of
its local offset 0 (R299). -/
def State.barrierHome (s : State) (m : Member) (dst : DWord) : Member × DWord :=
  match s.target m dst 1 with
  | .ok (.scratch o off) => (o, dst - BitVec.ofNat 64 off)
  | _ => (m, localBase)

/-- The barrier check of a copy (R319). -/
def copyBarrierCause (p : Shape) (o : Member × DWord) : Option (Nat × DWord) :=
  if p.arrive && !o.1.barrierOk p.offset then some (0x0D2, o.2 + BitVec.ofNat 64 p.offset) else none

/-- The counter check of a copy (R319, R59). -/
def State.jointCause (s : State) (m : Member) (t : Thread) (b : Name) (p : Shape) : Option (Nat × DWord) :=
  let h := s.name t (nameAt b 4)
  if p.joint && (s.counter? m.part h).isNone then some (0x141, h.setWidth 64) else none

/-- A crew without copy queue entries (R297). -/
def entryCause (m : Member) : Option (Nat × DWord) := if m.desc.cqcrew = 0 then some (0x0D1, 0) else none

/-- Free copy queue entries of a crew (R297): all of its own from its creation, whatever entries the copies of a
dissolved crew still hold (R132) (DESIGN CHOICE 103). -/
def State.freeEntries (s : State) (m : Member) (crew : Nat) : Nat :=
  m.desc.cqcrew - (s.copies.filter fun c => c.crew == crew).length

/-- A free entry for the thread; when fewer are free than threads of its group wait, the lower `%tid`
comes first (R297). -/
def State.entryReady (s : State) (i : Instr) (t : Thread) : Bool :=
  match s.member? t.member with
  | none => true
  | some m =>
    let before := s.threads.filter fun x =>
      x.standsAt t.crew t.pc && decide (x.tid < t.tid) && (s.issueCause x i).isNone && !s.operandsWait x i
    m.desc.cqcrew == 0 || decide (before.length < s.freeEntries m (s.crewFor t))

/-- The cluster positions of a mask. -/
def maskList (mask : Nat) : List Nat := (List.range 4).filter fun c => mask.testBit c

/-- The agents of a copy's accesses: a CPYM writes each destination as an agent of its own, since the flip of
one destination's barrier says nothing of the others (R364). -/
def CopyKind.agents (k : CopyKind) (id : Nat) : List Nat :=
  match k with
  | .cpym mask => agentC id :: (maskList mask).map fun pos => agentC (id + 1 + pos)
  | _ => [agentC id]

/-- A clock with all accesses of a copy. -/
def CopyKind.fullClk (k : CopyKind) (id : Nat) (clk : Clock) : Clock :=
  (k.agents id).foldl (fun c a => Clock.raise c a 1) clk

/-- A copy command enters its crew's queue (R297, R319). -/
def State.queueCopy (s : State) (t : Thread) (k : CopyKind) (dst src : DWord) (p : Shape) (joint : Option Word)
    (after : List Nat) : State :=
  let i := s.nextId
  let clk := s.engineClock [t] k.path i
  let c : Copy := {
    id := i, uid := t.uid, member := t.member, crew := s.crewFor t, core := t.core, pc := t.pc, kind := k
    dst := dst, src := src, rowbytes := p.rowbytes, rows := p.rows, dpitch := p.dpitch, spitch := p.spitch
    arrive := p.arrive, done := p.done, joint := joint, ring := if p.ring then some p.ringno else none
    offset := p.offset, shape := p.word, after := t.fenced k.path ++ after, clk := clk, started := false
    slot := none, moved := [], rowsDone := 0, fail := none, discard := none, arrived := false }
  let s := { s with nextId := s.nextId + 5, copies := s.copies ++ [c] }
  (s.noteIssued [t] k.path (k.fullClk i clk)).finish t.uid

/-- The counter handle that a command holds. -/
def State.jointOf (s : State) (t : Thread) (b : Name) (p : Shape) : Option Word :=
  if p.joint then some (s.name t (nameAt b 4)) else none

/-- A copy instruction: its checks, then its entry. -/
def copyWord (i : Instr) (s : State) (cause : State → Member → Thread → Option (Nat × DWord))
    (effect : State → Thread → State) : Host.Outcome State Fault Refusal :=
  issueWhen i s (fun s t => s.entryReady i t) fun s t =>
    match s.member? t.member with
    | none => s
    | some m =>
      match (cause s m t).or (entryCause m) with
      | some (c, x) => s.trap t.uid c x
      | none => effect s t

/-- The configured ring of a member. -/
def Member.ring? (m : Member) (n : Nat) : Option Ring := m.rings.find? fun r => r.num == n

/-- The ring checks of CPY (R319). -/
def ringCopyCause (m : Member) (p : Shape) : Option (Nat × DWord) :=
  if !p.ring then none
  else if m.desc.rings ≤ p.ringno then some (0x0D5, BitVec.ofNat 64 p.ringno)
  else match m.ring? p.ringno with
    | none => some (0x0D6, BitVec.ofNat 64 p.ringno)
    | some r =>
      if !r.copyProd || decide (r.bytes < p.rows * p.rowbytes) then some (0x0D6, BitVec.ofNat 64 p.ringno)
      else none

/-- The checks of CPY (R319). -/
def State.cpyCause (s : State) (m : Member) (t : Thread) (d a b : Name) : Option (Nat × DWord) :=
  let p := s.shape t b
  if p.bad || p.sel != 0 || (p.ring && d != 0) then some (0x0D0, p.word.setWidth 64)
  else
    let dst := s.pair t d
    (((((ringCopyCause m p).or (s.edgeCause m (s.pair t a) (regionBytes p.rows p.spitch p.rowbytes))).or
      (if p.ring then none else s.edgeCause m dst (regionBytes p.rows p.dpitch p.rowbytes))).or
      (copyBarrierCause p (if p.ring then (m, localBase) else s.barrierHome m dst))).or
      (s.jointCause m t b p))

/-- R319: CPY. -/
def execCpy (d a b : Name) (s : State) : Host.Outcome State Fault Refusal :=
  copyWord (.cpy d a b) s (fun s m t => s.cpyCause m t d a b) fun s t =>
    let p := s.shape t b
    s.queueCopy t .cpy (s.pair t d) (s.pair t a) p (s.jointOf t b p) []

/-- The destination base of a multicast at a cluster position (R320). -/
def multicastBase (c : Nat) (off : Word) : DWord :=
  clusterBase + BitVec.ofNat 64 (c * 2 ^ 24) + off.setWidth 64

/-- The first cause among some checks. -/
def firstCause (cs : List (Option (Nat × DWord))) : Option (Nat × DWord) := cs.findSome? id

/-- The checks of CPYM (R320). -/
def State.cpymCause (s : State) (m : Member) (t : Thread) (d a b : Name) : Option (Nat × DWord) :=
  let p := s.shape t b
  let mask := p.sel % 16
  if !isM t.core || mask == 0 then some (0x0D4, BitVec.ofNat 64 mask)
  else if p.bad || p.ring || decide (16 ≤ p.sel) then some (0x0D0, p.word.setWidth 64)
  else
    let bases := (maskList mask).map fun c => multicastBase c (s.name t d)
    (((s.edgeCause m (s.pair t a) (regionBytes p.rows p.spitch p.rowbytes)).or
      (firstCause (bases.map fun x => s.edgeCause m x (regionBytes p.rows p.dpitch p.rowbytes)))).or
      (firstCause (bases.map fun x => copyBarrierCause p (s.barrierHome m x)))).or
      (s.jointCause m t b p)

/-- R320: CPYM. -/
def execCpym (d a b : Name) (s : State) : Host.Outcome State Fault Refusal :=
  copyWord (.cpym d a b) s (fun s m t => s.cpymCause m t d a b) fun s t =>
    let p := s.shape t b
    s.queueCopy t (.cpym (p.sel % 16)) ((s.name t d).setWidth 64) (s.pair t a) p (s.jointOf t b p) []

/-- The checks of CPYA (R321). -/
def State.cpyaCause (s : State) (m : Member) (t : Thread) (d : BitVec 6) (a b : Name) :
    Option (Nat × DWord) :=
  let o := (s.name t a).toNat
  let p := (loWord (s.pair t b)).toNat
  if m.desc.acc ≤ d.toNat then some (0x0C1, BitVec.ofNat 64 d.toNat)
  else if o % 16 ≠ 0 ∨ p % 16 ≠ 0 ∨ ¬(barrierWord (hiWord (s.pair t b))).1 then
    some (0x0DD, BitVec.ofNat 64 o)
  else if m.scratchBytes < o + 63 * p + 256 then some (0x082, localBase + BitVec.ofNat 64 o)
  else none

/-- The shape of a CPYA: 64 rows of 256 bytes (R321). -/
def cpyaShape (pitch : Nat) (w : Word) : Shape where
  rowbytes := 256
  rows := 64
  sel := 0
  spitch := pitch
  dpitch := pitch
  arrive := w.getLsbD 31
  done := false
  joint := false
  ring := false
  ringno := 0
  offset := (w.extractLsb' 0 24).toNat
  word := w

/-- The matrix commands of a member that name a slot (R321). -/
def State.slotCmds (s : State) (core member slot : Nat) : List Nat :=
  ((s.core core).mq.filter fun q => q.member == member && q.kind.slot? == some slot).map (·.id)

/-- CPYA in either direction (R321). -/
def cpya (i : Instr) (out : Bool) (d : BitVec 6) (a b : Name) (s : State) : Host.Outcome State Fault Refusal :=
  copyWord i s (fun s m t => s.cpyaCause m t d a b) fun s t =>
    let o : DWord := localBase + (s.name t a).setWidth 64
    let p := cpyaShape (loWord (s.pair t b)).toNat (hiWord (s.pair t b))
    s.queueCopy t (.acc d.toNat out) o o p none (s.slotCmds t.core t.member d.toNat)

/-- R321: CPYA.out. -/
def execCpyaOut (d : BitVec 6) (a b : Name) (s : State) : Host.Outcome State Fault Refusal :=
  cpya (.cpyaOut d a b) true d a b s
/-- R321: CPYA.in. -/
def execCpyaIn (d : BitVec 6) (a b : Name) (s : State) : Host.Outcome State Fault Refusal :=
  cpya (.cpyaIn d a b) false d a b s

/-- The entry of a partition's peer list (R44). -/
def State.peerEntry (s : State) (part n : Nat) : Option Peer :=
  if 64 ≤ n then none
  else match s.part? part with
    | none => none
    | some p => match (peersOf p.cfg)[n]? with
      | none => none
      | some e => if e.valid then some e else none

/-- The checks of CPYN: the local region is written by a get, read by a put (R322). -/
def State.cpynCause (s : State) (m : Member) (t : Thread) (get : Bool) (a b : Name) : Option (Nat × DWord) :=
  let p := s.shape t b
  if p.bad || p.ring then some (0x0D0, p.word.setWidth 64)
  else if (s.peerEntry m.part p.sel).isNone then some (0x0D8, BitVec.ofNat 64 p.sel)
  else
    let pitch := if get then p.dpitch else p.spitch
    ((s.edgeCause m (s.pair t a) (regionBytes p.rows pitch p.rowbytes)).or
      (copyBarrierCause p (m, localBase))).or (s.jointCause m t b p)

/-- The partition of a member. -/
def State.partOf (s : State) (m : Nat) : Nat := ((s.member? m).map (·.part)).getD 0

/-- R322: CPYN.put. -/
def execCpynPut (d a b : Name) (s : State) : Host.Outcome State Fault Refusal :=
  copyWord (.cpynPut d a b) s (fun s m t => s.cpynCause m t false a b) fun s t =>
    let p := s.shape t b
    match s.peerEntry (s.partOf t.member) p.sel with
    | none => s
    | some e => s.queueCopy t (.put e) (s.pair t d) (s.pair t a) p (s.jointOf t b p) []
/-- R322: CPYN.get. -/
def execCpynGet (d a b : Name) (s : State) : Host.Outcome State Fault Refusal :=
  copyWord (.cpynGet d a b) s (fun s m t => s.cpynCause m t true a b) fun s t =>
    let p := s.shape t b
    match s.peerEntry (s.partOf t.member) p.sel with
    | none => s
    | some e => s.queueCopy t (.get e) (s.pair t a) (s.pair t d) p (s.jointOf t b p) []

/-! ## Execution (R301, R302, R319) -/

/-- A destination of a copy: its cluster position, 0 for others, and the address of its first row. -/
structure Dest where
  pos : Nat
  base : DWord
  deriving DecidableEq, Repr

/-- Who makes a copy's reads, and its writes when they have one agent. -/
def Copy.actor (c : Copy) : Actor := ⟨agentC c.id, c.clk, c.member, c.core, c.kind.path⟩
/-- The agent of the writes to a destination (R364). -/
def Copy.destAgent (c : Copy) (d : Dest) : Nat :=
  match c.kind with
  | .cpym _ => agentC (c.id + 1 + d.pos)
  | _ => agentC c.id
/-- What a copy's writes to a destination come after, with those writes. -/
def Copy.destClk (c : Copy) (d : Dest) : Clock := Clock.raise c.clk (c.destAgent d) 1
/-- Who makes a copy's writes to a destination. -/
def Copy.destActor (c : Copy) (d : Dest) : Actor := { c.actor with agent := c.destAgent d, clk := c.destClk d }
/-- Everything a copy has done. -/
def Copy.doneClk (c : Copy) : Clock := c.kind.fullClk c.id c.clk

/-- The destinations of a copy (R320). -/
def Copy.dests (c : Copy) : List Dest :=
  match c.kind with
  | .cpym mask => (maskList mask).map fun k => ⟨k, multicastBase k (loWord c.dst)⟩
  | _ => [⟨clusterPos c.dst, c.dst⟩]

/-- The address of row r of a destination. -/
def Copy.dstRow (c : Copy) (d : Dest) (r : Nat) : DWord := d.base + BitVec.ofNat 64 (r * c.dpitch)
/-- The address of row r of the source. -/
def Copy.srcRow (c : Copy) (r : Nat) : DWord := c.src + BitVec.ofNat 64 (r * c.spitch)

/-- What a row of a copy comes to: it waits, it ends the command, or it is moved to some destinations and
discarded at others (R302, R316). -/
inductive RowPlan where
  | wait (c : Check)
  | fail (cause pos : Nat) (addr : DWord)
  | go (keep : List Dest) (lost : List (Nat × DWord))
  deriving DecidableEq, Repr

/-- The destinations of a row, checked in order: a cluster row whose peer is gone or too small is
discarded (R302). -/
def State.planDests (s : State) (c : Copy) (r : Nat) (ds : List Dest) : RowPlan :=
  match ds with
  | [] => .go [] []
  | d :: rest =>
    let addr := c.dstRow d r
    match s.checkPieces c.member (piecesOf true addr c.rowbytes) with
    | .wait w => .wait w
    | .ok =>
      match State.planDests s c r rest with
      | .go keep lost => .go (d :: keep) lost
      | p => p
    | .fail cause x =>
      if discards cause then
        match State.planDests s c r rest with
        | .go keep lost => .go keep ((d.pos, addr) :: lost)
        | p => p
      else .fail cause (match c.kind with | .cpym _ => d.pos | _ => 0) x

/-- A row of a copy, its source first. -/
def State.planRow (s : State) (c : Copy) (r : Nat) : RowPlan :=
  match s.checkPieces c.member (piecesOf false (c.srcRow r) c.rowbytes) with
  | .wait w => .wait w
  | .fail cause x => .fail cause 0 x
  | .ok => s.planDests c r c.dests

/-- The rows of a copy up to the first that ends it; the first that waits makes the command wait. -/
structure Plan where
  rows : List (Nat × List Dest)
  discard : Option (Nat × DWord × Nat × Nat)
  fail : Option (Nat × Nat × DWord)
  deriving DecidableEq, Repr

/-- Rows already planned that reach a cluster position. -/
def rowsTo (rows : List (Nat × List Dest)) (pos : Nat) : Nat :=
  (rows.filter fun r => r.2.any fun d => d.pos == pos).length

/-- Plans rows from row `r` on. -/
def State.planRows (s : State) (c : Copy) (r n : Nat) (p : Plan) : Except Check Plan :=
  match n with
  | 0 => .ok p
  | n + 1 =>
    match s.planRow c r with
    | .wait w => .error w
    | .fail cause pos x => .ok { p with fail := some (cause, pos, x) }
    | .go keep lost =>
      let first := lost.head?.map fun l =>
        (l.1, l.2, rowsTo p.rows l.1, rowsTo p.rows l.1 * c.rowbytes)
      State.planRows s c (r + 1) n
        { p with rows := p.rows ++ [(r, keep)], discard := p.discard.or first }

/-- An address of the destination lies in the source region of a copy (R301). -/
def State.inSource (s : State) (c : Copy) (addr : DWord) : Bool :=
  let len := regionBytes c.rows c.spitch c.rowbytes
  match s.member? c.member with
  | none => false
  | some m =>
    match s.target m addr 1, s.target m c.src 1 with
    | .ok (.shared x), .ok (.shared y) => decide (y ≤ x) && decide (x < y + len)
    | .ok (.scratch o x), .ok (.scratch p y) => o.id == p.id && decide (y ≤ x) && decide (x < y + len)
    | _, _ => false

/-- Destination bytes that overlap the source region hold free values (R301) (DESIGN CHOICE 11). -/
def State.scramble (s : State) (c : Copy) (addr : DWord) (bs : List Byte) : State × List Byte :=
  match bs with
  | [] => (s, [])
  | b :: rest =>
    let hit := s.inSource c addr
    let s' := if hit then { s with fresh := s.fresh + 1 } else s
    let x := if hit then Config.raced s.fresh else b
    let (s', more) := State.scramble s' c (addr + 1) rest
    (s', x :: more)

/-- Writes a row to its destinations. -/
def State.writeDests (s : State) (c : Copy) (r : Nat) (ds : List Dest) (bs : List Byte) : State :=
  match ds with
  | [] => s
  | d :: rest =>
    let addr := c.dstRow d r
    let (s, ys) := s.scramble c addr bs
    State.writeDests (s.writePieces (c.destActor d) (piecesOf true addr c.rowbytes) ys) c r rest bs

/-- Reads planned rows, the whole source before any destination is written. -/
def State.readRows (s : State) (c : Copy) (rows : List (Nat × List Dest)) : State × List (List Byte) :=
  match rows with
  | [] => (s, [])
  | x :: rest =>
    let (s, bs) := s.readPieces c.actor (piecesOf false (c.srcRow x.1) c.rowbytes)
    let (s, more) := State.readRows s c rest
    (s, bs :: more)

/-- Writes planned rows. -/
def State.writeRows (s : State) (c : Copy) (rows : List (Nat × List Dest)) (data : List (List Byte)) : State :=
  match rows, data with
  | x :: rest, bs :: more => State.writeRows (s.writeDests c x.1 x.2 bs) c rest more
  | _, _ => s

/-- Planned rows that are wholly moved: to every destination (R316). -/
def wholeRows (c : Copy) (rows : List (Nat × List Dest)) : Nat :=
  (rows.filter fun r => r.2.length == c.dests.length).length

/-- Bytes moved to each cluster position. -/
def movedTo (c : Copy) (rows : List (Nat × List Dest)) : List (Nat × Nat) :=
  c.dests.map fun d => (d.pos, rowsTo rows d.pos * c.rowbytes)

/-- Changes a copy. -/
def State.modCopy (s : State) (i : Nat) (f : Copy → Copy) : State :=
  { s with copies := updateIf s.copies (fun c => c.id == i) f }

/-- The slots of a ring in ring order from its claim pointer, oldest claim first. -/
def Ring.order (r : Ring) : List Nat :=
  (List.range r.slots.length).map fun i => (r.claim + i) % r.slots.length

/-- The state of a slot. -/
def Ring.slotState (r : Ring) (i : Nat) : RingSlot := (r.slots.getD i (.free, [])).1
/-- The clock of a slot (R311). -/
def Ring.slotClock (r : Ring) (i : Nat) : Clock := (r.slots.getD i (.free, [])).2
/-- Sets a slot. -/
def Ring.setSlot (r : Ring) (i : Nat) (x : RingSlot) (clk : Clock) : Ring :=
  { r with slots := r.slots.set i (x, clk) }

/-- Committed slots become Filled behind no Claimed one, Released slots Free behind no Held one (R310). -/
def settleSlots (order : List Nat) (claimed held : Bool) (r : Ring) : Ring :=
  match order with
  | [] => r
  | i :: rest =>
    match r.slotState i with
    | .claimed => settleSlots rest true held r
    | .held => settleSlots rest claimed true r
    | .committed =>
      if claimed then settleSlots rest claimed held r
      else settleSlots rest claimed held (r.setSlot i .filled (r.slotClock i))
    | .released =>
      if held then settleSlots rest claimed held r
      else settleSlots rest claimed held (r.setSlot i .free (r.slotClock i))
    | _ => settleSlots rest claimed held r

/-- The slot states settle (R310). -/
def Ring.settle (r : Ring) : Ring := settleSlots r.order false false r

/-- A slot changes its state, with what its holder did there behind it, and the ring settles (R310, R311). -/
def Ring.move (r : Ring) (i : Nat) (x : RingSlot) (clk : Clock) : Ring :=
  { (r.setSlot i x clk).settle with past := assocSet r.past i (Clock.join ((assoc r.past i).getD []) clk) }

/-- The producer can claim (R310). -/
def Ring.canClaim (r : Ring) : Bool := r.slotState r.claim == .free
/-- The producer, a thread, copy or subscription by its number, claims the slot at the claim pointer (R310). -/
def Ring.doClaim (holder : Nat) (r : Ring) : Ring :=
  { r.setSlot r.claim .claimed (r.slotClock r.claim) with
    claim := (r.claim + 1) % r.slots.length
    holders := assocSet r.holders r.claim holder }
/-- The consumer can take (R310). -/
def Ring.canTake (r : Ring) : Bool := r.slotState r.take == .filled
/-- The consumer takes the slot at the take pointer (R310). -/
def Ring.doTake (holder : Nat) (r : Ring) : Ring :=
  { r.setSlot r.take .held (r.slotClock r.take) with
    take := (r.take + 1) % r.slots.length
    holders := assocSet r.holders r.take holder }
/-- The local offset of a slot (R309). -/
def Ring.offsetOf (r : Ring) (i : Nat) : Nat := r.base + i * r.bytes

/-- Changes a ring of a member. -/
def State.modRing (s : State) (member n : Nat) (f : Ring → Ring) : State :=
  s.modMember member fun m => { m with rings := updateIf m.rings (fun r => r.num == n) f }

/-- A copy with its ring slot claimed (R319): its destination is the slot, its rows packed. -/
def Copy.intoSlot (c : Copy) (r : Ring) : Copy :=
  { c with
    slot := some r.claim
    dst := localBase + BitVec.ofNat 64 (r.offsetOf r.claim)
    dpitch := c.rowbytes }

/-- The ring that a copy writes into, when it can claim a slot; a copy without a ring needs none. -/
def State.ringStep (s : State) (c : Copy) : Option (State × Copy) :=
  match c.ring with
  | none => some (s, c)
  | some n =>
    match (s.member? c.member).bind fun m => m.ring? n with
    | none => none
    | some r => if r.canClaim then some (s.modRing c.member n (Ring.doClaim c.id), c.intoSlot r) else none

/-- Commands of one crew start in issue order; a schedule entry starts by itself (R301, R308). -/
def State.startsNext (s : State) (c : Copy) : Bool :=
  match c.kind with
  | .sched _ => true
  | _ => s.copies.all fun x => x.started || decide (c.id ≤ x.id) || x.crew != c.crew

/-- Bytes a copy has moved. -/
def Copy.movedBytes (c : Copy) : Nat := (c.moved.map (·.2)).foldl (· + ·) 0

/-- The charge of a copy (R476). -/
def Copy.usage (c : Copy) : Usage :=
  match c.kind.path with
  | .n => { Usage.zero with net := c.movedBytes }
  | _ => { Usage.zero with copy := c.movedBytes }

/-- The bytes that a copy has moved are charged, when they move (R476). -/
def State.chargeCopy (s : State) (c : Copy) : State := s.chargeMember c.member c.usage

/-- A copy has moved its rows (R476). -/
def State.copyMoved (s : State) (c : Copy) : State := (s.modCopy c.id fun _ => c).chargeCopy c

/-- A command of the copy engine moves its rows (R301, R302). -/
def State.moveCopy (s : State) (c : Copy) : Except Check State :=
  match s.planRows c 0 c.rows ⟨[], none, none⟩ with
  | .error w => .error w
  | .ok p =>
    let (s, data) := s.readRows c p.rows
    let s := s.writeRows c p.rows data
    .ok (s.copyMoved { c with
      started := true
      moved := movedTo c p.rows
      rowsDone := wholeRows c p.rows
      fail := p.fail
      discard := p.discard })

/-- The rows of a CPYA in pieces (R321). -/
def accRows (c : Copy) (out : Bool) : List (List Piece) :=
  (List.range 64).map fun r => piecesOf out (c.dstRow ⟨0, c.dst⟩ r) 256

/-- Row i of a slot as bytes (R321). -/
def Member.accRow (m : Member) (slot i : Nat) : List Byte :=
  (List.range 64).flatMap fun j => leBytes 4 (Map.get m.accs (slot * slotCells + 64 * i + j)).toNat

/-- Sets row i of a slot from bytes. -/
def Member.setAccRow (m : Member) (slot i : Nat) (bs : List Byte) : Member :=
  { m with accs := (List.range 64).foldl (fun a j =>
      Map.set a (slot * slotCells + 64 * i + j) (leWord (slice bs (4 * j) 4))) m.accs }

/-- Moves rows of a CPYA from row `r` on. -/
def State.moveAcc (s : State) (c : Copy) (slot : Nat) (out : Bool) (r : Nat) (rows : List (List Piece)) : State :=
  match rows with
  | [] => s
  | ps :: rest =>
    match s.member? c.member with
    | none => s
    | some m =>
      if out then State.moveAcc (s.writePieces c.actor ps (m.accRow slot r)) c slot out (r + 1) rest
      else
        let (s, bs) := s.readPieces c.actor ps
        State.moveAcc (s.modMember c.member fun m => m.setAccRow slot r bs) c slot out (r + 1) rest

/-- A CPYA moves its rows (R321). -/
def State.moveCpya (s : State) (c : Copy) (slot : Nat) (out : Bool) : Except Check State :=
  let rows := accRows c out
  match s.reach c.member rows 0 with
  | .wait w => .error w
  | .rows n fail =>
    let s := s.moveAcc c slot out 0 (rows.take n)
    .ok (s.copyMoved { c with
      started := true
      moved := [(0, n * 256)]
      rowsDone := n
      fail := fail.map fun f => (f.1, 0, f.2) })

/-- The puts of a row, of at most 8,192 bytes each (R322). -/
def putMsgs (part : Nat) (peer : Peer) (fuel : Nat) (addr : DWord) (bs : List Byte) : List Msg :=
  match fuel with
  | 0 => []
  | fuel + 1 =>
    if bs.isEmpty then []
    else .put part peer addr (bs.take 8192) :: putMsgs part peer fuel (addr + 8192) (bs.drop 8192)
/-- The gets of a row. -/
def getMsgs (part : Nat) (peer : Peer) (fuel : Nat) (addr : DWord) (n : Nat) : List Msg :=
  match fuel with
  | 0 => []
  | fuel + 1 =>
    if n = 0 then []
    else .get part peer addr (Nat.min n 8192) :: getMsgs part peer fuel (addr + 8192) (n - 8192)

/-- Sends the rows of a put. -/
def State.sendPut (s : State) (c : Copy) (part : Nat) (peer : Peer) (r : Nat) (rows : List (List Piece)) : State :=
  match rows with
  | [] => s
  | ps :: rest =>
    let (s, bs) := s.readPieces c.actor ps
    let addr := c.dst + BitVec.ofNat 64 (r * c.dpitch)
    State.sendPut (s.send (putMsgs part peer (c.rowbytes / 8192 + 1) addr bs)) c part peer (r + 1) rest

/-- A CPYN.put reads its rows and sends them; they are charged when the peer has answered, or here when a failure
ends it (R322, R476). -/
def State.movePut (s : State) (c : Copy) (part : Nat) (peer : Peer) : Except Check State :=
  let rows := (List.range c.rows).map fun r => piecesOf false (c.srcRow r) c.rowbytes
  match s.reach c.member rows 0 with
  | .wait w => .error w
  | .rows n fail =>
    let s := s.sendPut c part peer 0 (rows.take n)
    let c := { c with
      started := true
      moved := [(0, n * c.rowbytes)]
      rowsDone := n
      fail := fail.map fun f => (f.1, 0, f.2) }
    .ok (if fail.isSome then s.copyMoved c else s.modCopy c.id fun _ => c)

/-- A CPYN.get asks for its rows (R322). -/
def State.moveGet (s : State) (c : Copy) (part : Nat) (peer : Peer) : State :=
  (s.send ((List.range c.rows).flatMap fun r =>
    getMsgs part peer (c.rowbytes / 8192 + 1) (c.srcRow r) c.rowbytes)).modCopy c.id
    fun x => { x with started := true }

/-- The rows of a command that starts (R301). -/
def State.startCopy (s : State) (c : Copy) : Except Check State :=
  match c.kind with
  | .acc slot out => s.moveCpya c slot out
  | .put peer => s.movePut c (s.partOf c.member) peer
  | .get peer => .ok (s.moveGet c (s.partOf c.member) peer)
  | _ => s.moveCopy c

/-- COPY_START (R301): the command named by the input starts once what it is ordered after is complete
and a slot is free; a fill or page it needs comes first. -/
def execCopyStart (s : State) : Host.Outcome State Fault Refusal :=
  match s.input with
  | .id i =>
    match s.copies.find? fun c => c.id == i with
    | none => .next s
    | some c =>
      if c.started || !s.startsNext c || !s.allDone c.after || !s.settled c.clk then .next s
      else match s.ringStep c with
        | none => .next s
        | some (s', c') =>
          match s'.startCopy c' with
          | .ok s'' => .next s''
          | .error w => .next (s.waitOn (s.partOf c.member) c.actor w)
  | _ => .next s

/-! ## Ends (R300, R302, R306, R316) -/

/-- The arrivals of a copy, one per barrier (R299, R306): its own bytes, or with an error the whole
count. -/
def State.copyArrivals (s : State) (c : Copy) (error : Option Nat) (ds : List Dest) : State :=
  match ds with
  | [] => s
  | d :: rest =>
    let total := c.rows * c.rowbytes
    let got := (assoc c.moved d.pos).getD 0
    let own (m : Member) (moved : Nat) : State :=
      s.sendArrival c.id c.crew ⟨m.id + 1, c.offset⟩ total moved error c.clk
    let s := match s.member? c.member, c.kind with
      | none, _ => s
      | some m, .cpy => sendTo s m d total got
      | some m, .cpym _ => sendTo s m d total got
      | some m, .acc _ out => own m (if out then got else 0)
      | some m, .put _ => own m 0
      | some m, _ => own m (if s.ownRow m d.base then got else 0)
    State.copyArrivals s c error rest
where
  /-- The arrival at the destination's scratchpad, or at the issuer's for another destination; a peer that
  has gone receives none. -/
  sendTo (s : State) (m : Member) (d : Dest) (total got : Nat) : State :=
    match s.target m d.base 1 with
    | .ok (.scratch o _) =>
      s.sendArrival c.id c.crew ⟨o.id + 1, c.offset⟩ (if error.isNone then got else total) got error (c.destClk d)
    | .ok (.shared _) => s.sendArrival c.id c.crew ⟨m.id + 1, c.offset⟩ total 0 error (c.destClk d)
    | .error _ => s

/-- Discarded rows set one error update out to the issuer's barrier, after the command's own arrival
(R302). -/
def State.discardArrival (s : State) (c : Copy) : State :=
  if c.discard.isSome then
    s.sendArrival c.id c.crew ⟨c.member + 1, c.offset⟩ 0 0 (some 0x0DA) c.clk
  else s

/-- The arrivals of a copy set out, with a failure's cause; its entry waits for them (R300). -/
def State.endArrivals (s : State) (c : Copy) (error : Option Nat) : State :=
  ((s.copyArrivals c error c.dests).discardArrival c).modCopy c.id fun _ => { c with arrived := true }

/-- Arrivals of a command are on their way. -/
def State.arriving (s : State) (cmd : Nat) : Bool := s.arrivals.any fun a => a.cmd == cmd

/-- The cause of discarded rows (R302). -/
def State.reportDiscard (s : State) (c : Copy) : State :=
  match c.discard with
  | none => s
  | some (pos, addr, rows, bytes) => s.deliver c.member c.crew c.uid
      ⟨0x0DA, addr, some ⟨0x0DA, 0, c.pc, addr, rows, bytes, c.shape, pos⟩, false⟩

/-- A schedule entry is complete (R308). -/
def State.endEntry (s : State) (c : Copy) : State :=
  match c.kind with
  | .sched e => s.modMember c.member fun m =>
      { m with sched := m.sched.zipIdx.map fun (x, i) =>
          if i = e then { x with complete := true, clk := c.doneClk } else x }
  | _ => s

/-- The ring slot of a copy is committed, a ring push, which wakes the core (R83, R310, R319). -/
def State.commitSlot (s : State) (c : Copy) : State :=
  match c.ring, c.slot with
  | some n, some i => (s.modRing c.member n fun r => r.move i .committed c.doneClk).wakeMember c.member
  | _, _ => s

/-- The command leaves the engine: its entry frees, and its accesses are done for those who issued it (R300,
R355). -/
def State.dropCopy (s : State) (c : Copy) : State :=
  ({ s with copies := s.copies.filter fun x => x.id != c.id }.endEntry c).endsCommand c.id c.crew c.member [c.uid]
    c.kind.path c.doneClk

/-- The decrements of a completed copy (R300). -/
def State.copyDecs (s : State) (c : Copy) : State :=
  match s.member? c.member with
  | none => s
  | some m =>
    let s := if c.done && m.desc.done != noHandle then
        s.sendDec c.id m.id m.part m.desc.done m.job c.doneClk else s
    match c.joint with
    | none => s
    | some h => s.sendDec c.id m.id m.part h m.job c.doneClk

/-- A copy whose arrivals are made: its decrements set out, its entry frees (R300 steps 3 and 4). -/
def State.finishCopy (s : State) (c : Copy) : State :=
  (((s.reportDiscard c).copyDecs c).dropCopy c).freeCounters

/-- A command completes: its slot is committed and its arrivals set out; once they are made, the decrements
follow and its entry frees (R300). -/
def State.completeCopy (s : State) (c : Copy) : State :=
  if c.arrived then (if s.arriving c.id then s else s.finishCopy c)
  else
    let s := s.commitSlot c
    if c.arrive then s.endArrivals c none else s.finishCopy c

/-- The class 3 cause of a copy that ends: a remote access error, or a memory failure (R316, R322). -/
def Copy.cause (c : Copy) (under : Nat) : Nat :=
  match c.kind.path with
  | .n => if under = 0 then 0x0DB else 0x0D9
  | _ => 0x0D9

/-- A schedule entry has no PC (R316). -/
def Copy.recordPc (c : Copy) : Word :=
  match c.kind with
  | .sched _ => 0xFFFFFFFF
  | _ => c.pc

/-- A copy that a failure has ended and whose arrivals are made: it decrements nothing, delivers its cause
with the progress record, and its entry frees (R316). -/
def State.finishFailed (s : State) (c : Copy) (under pos : Nat) (addr : DWord) : State :=
  let cause := c.cause under
  let r : Progress := ⟨cause, under, c.recordPc, addr, c.rowsDone, c.movedBytes, c.shape, pos⟩
  (((s.reportDiscard c).deliver c.member c.crew c.uid ⟨cause, addr, some r, false⟩).dropCopy c).freeCounters

/-- A command ends by a failure: it arrives with its whole count and the error, and once that is made it
reports and leaves (R306, R316, R427). -/
def State.failCopy (s : State) (c : Copy) (under pos : Nat) (addr : DWord) : State :=
  if c.arrived then (if s.arriving c.id then s else s.finishFailed c under pos addr)
  else if c.arrive then
    s.endArrivals { c with fail := some (under, pos, addr) } (some (if under = 0 then c.cause 0 else under))
  else s.finishFailed c under pos addr

/-- A put that its peer refuses has moved some of its rows and bytes: which is free, within what it sent
(R316, R322). -/
def State.refusedPut (s : State) (c : Copy) : State × Copy :=
  let rows := Config.acked s.fresh % (c.rowsDone + 1)
  let bytes := rows * c.rowbytes + Config.acked (s.fresh + 1) % (c.movedBytes - rows * c.rowbytes + 1)
  ({ s with fresh := s.fresh + 2 }, { c with rowsDone := rows, moved := [(0, bytes)] })

/-- Splits bytes into rows. -/
def rowsOf (n rowbytes : Nat) (bs : List Byte) : List (List Byte) :=
  (List.range n).map fun r => slice bs (r * rowbytes) rowbytes

/-- Writes the rows of a get. -/
def State.landGet (s : State) (c : Copy) (r : Nat) (rows : List (List Piece)) (data : List (List Byte)) : State :=
  match rows, data with
  | ps :: rest, bs :: more => State.landGet (s.writePieces c.actor ps bs) c (r + 1) rest more
  | _, _ => s

/-- The data of a get lands, whole, or up to the row that fails (R322). -/
def State.finishGet (s : State) (c : Copy) (data : List Byte) : State :=
  let rows := (List.range c.rows).map fun r => piecesOf true (c.dstRow ⟨0, c.dst⟩ r) c.rowbytes
  match s.reach c.member rows 0 with
  | .wait w => s.waitOn (s.partOf c.member) c.actor w
  | .rows n fail =>
    let s := s.landGet c 0 (rows.take n) (rowsOf n c.rowbytes data)
    let c := { c with moved := [(clusterPos c.dst, n * c.rowbytes)], rowsDone := n }
    let s := s.chargeCopy c
    match fail with
    | none => s.completeCopy c
    | some f => s.failCopy c f.1 0 f.2

/-- COPY_COMPLETE (R300): the command named by the input, every byte of it performed; for a CPYN the
peer's answer comes with it. A command that arrives leaves at a second such event, when its arrivals are
made. -/
def execCopyComplete (s : State) : Host.Outcome State Fault Refusal :=
  match s.input with
  | .id i =>
    match s.copies.find? fun c => c.id == i with
    | none => .next s
    | some c =>
      if c.started && c.fail.isNone && (c.kind.path != .n || c.arrived) then .next (s.completeCopy c)
      else .next s
  | .remote i (some data) =>
    match s.copies.find? fun c => c.id == i with
    | none => .next s
    | some c =>
      if !c.started || c.fail.isSome || c.arrived then .next s
      else match c.kind with
        | .put _ => .next ((s.chargeCopy c).completeCopy c)
        | .get _ => .next (s.finishGet c data)
        | _ => .next s
  | _ => .next s

/-- COPY_FAILURE_END (R316): the command named by the input has met a memory failure, has lost its ring
(R315), or its peer answers with an access error (R322). One that arrives leaves at a second such event,
when its arrivals are made. -/
def execCopyFailureEnd (s : State) : Host.Outcome State Fault Refusal :=
  match s.input with
  | .id i =>
    match s.copies.find? fun c => c.id == i with
    | none => .next s
    | some c =>
      match c.fail with
      | none => .next s
      | some (under, pos, addr) => .next (s.failCopy c under pos addr)
  | .remote i none =>
    match s.copies.find? fun c => c.id == i with
    | none => .next s
    | some c =>
      if !c.started || c.arrived || c.fail.isSome then .next s
      else match c.kind with
        | .put _ =>
          let (s, c) := s.refusedPut c
          .next ((s.chargeCopy c).failCopy c 0 0 c.dst)
        | .get _ => .next (s.failCopy c 0 0 c.src)
        | _ => .next s
  | _ => .next s

/-! ## The static schedule (R308, R325) -/

/-- The first schedule entry that has not started, with its number. -/
def Member.nextEntry (m : Member) : Option (SchedEntry × Nat) := m.sched.zipIdx.find? fun x => !x.1.started

/-- An entry may start: it is released, and with eflags bit 2 the entry before it is complete (R308). -/
def Member.entryMayStart (m : Member) (e : SchedEntry) (i : Nat) : Bool :=
  decide (i < m.schedCtr) && (!e.eflags.testBit 2 || i == 0 ||
    ((m.sched[i - 1]?).map (·.complete)).getD true)

/-- The copy command of a schedule entry (R308). -/
def Member.entryCopy (m : Member) (e : SchedEntry) (i id : Nat) : Copy where
  id := id
  uid := 0
  member := m.id
  crew := 0
  core := m.core
  pc := 0xFFFFFFFF
  kind := .sched i
  dst := e.dst
  src := e.src
  rowbytes := e.rowbytes
  rows := e.rows
  dpitch := pitchOf e.dpitch e.rowbytes
  spitch := pitchOf e.spitch e.rowbytes
  arrive := e.eflags.testBit 0
  done := e.eflags.testBit 1
  joint := none
  ring := none
  offset := e.barrier
  shape := BitVec.ofNat 32 (e.eflags % 256 * 2 ^ 24 + e.barrier % 2 ^ 24)
  after := []
  clk := Clock.raise (Clock.join m.clk (if e.eflags.testBit 2 && i != 0 then
    ((m.sched[i - 1]?).map (·.clk)).getD [] else [])) (agentC id) 1
  started := false
  slot := none
  moved := []
  rowsDone := 0
  fail := none
  discard := none
  arrived := false

/-- SCHEDULE_ENTRY_START (R308): the next released entry of the member named by the input. -/
def execScheduleEntryStart (s : State) : Host.Outcome State Fault Refusal :=
  match s.input with
  | .id i =>
    match s.member? i with
    | none => .next s
    | some m =>
      match m.nextEntry with
      | none => .next s
      | some (e, k) =>
        if !m.entryMayStart e k then .next s
        else
          let c := m.entryCopy e k s.nextId
          let s := { s with nextId := s.nextId + 1, copies := s.copies ++ [c] }
          .next (s.modMember i fun x => { x with sched := x.sched.zipIdx.map fun (y, j) =>
            if j = k then { y with started := true } else y })
  | _ => .next s

/-- R325: STADV. -/
def execStadv (d a : Name) (s : State) : Host.Outcome State Fault Refusal :=
  issueWord (.stadv d a) s fun s t =>
    match s.member? t.member with
    | none => s
    | some m =>
      let c := Nat.min m.sched.length (m.schedCtr + (s.name t a).toNat)
      (s.modMember m.id fun x => { x with schedCtr := c }).result t d (BitVec.ofNat 32 c)

/-! ## Barrier instructions (R323, R324) -/

/-- The location of the barrier at an address, or the cause (R323, R404). -/
def State.barrierLoc (s : State) (m : Member) (addr : DWord) : Except Nat Loc :=
  match s.target m addr 16 with
  | .ok (.scratch o off) =>
    if (o.regionAt off).isSome then .error 0x0D2
    else if s.slotBarred m o off 16 then .error 0x092
    else .ok ⟨o.id + 1, off⟩
  | _ => .error 0x0D2

/-- A barrier instruction: its address, an uncorrectable error in its 16 bytes, then its effect; one that updates the
barrier comes after the thread's earlier path T accesses (R214, R305, R357). -/
def barrierWordOp (i : Instr) (a : Name) (update : Bool) (s : State)
    (body : State → Thread → DWord → Loc → State) : Host.Outcome State Fault Refusal :=
  issueWord i s fun s t =>
    match s.member? t.member with
    | none => s
    | some m =>
      let addr := s.addrPair t a
      match s.barrierLoc m addr with
      | .error c => s.trap t.uid c addr
      | .ok l =>
        if !s.homeOpen l || (update && !s.caughtUp t) then s
        else if s.meetsError l 16 then s.trap t.uid 0x087 addr
        else body s t addr l

/-- The member whose scratchpad holds a location notes a barrier that was initialised there (R404). -/
def State.noteBarrier (s : State) (l : Loc) : State :=
  match l.space with
  | 0 => s
  | m + 1 => s.modMember m fun x =>
      { x with barriers := if x.barriers.contains l.off then x.barriers else x.barriers ++ [l.off] }

/-- R323: BINIT. -/
def execBinit (a b : Name) (s : State) : Host.Outcome State Fault Refusal :=
  barrierWordOp (.binit a b) a true s fun s t _ l =>
    let s := s.tick t.uid (agentT t.uid)
    let s := s.initBarrier (agentT t.uid) (s.clkOf t.uid) l (Barrier.init (s.name t b))
    ((s.setBarClock ⟨l, [], []⟩).noteBarrier l).finish t.uid

/-- R323: BARR. -/
def execBarr (a b : Name) (s : State) : Host.Outcome State Fault Refusal :=
  barrierWordOp (.barr a b) a true s fun s t _ l =>
    let s := s.tick t.uid (agentT t.uid)
    (s.arriveAt (agentT t.uid) (s.clkOf t.uid) l (s.name t b).toNat 0 none).finish t.uid

/-- A thread reads a barrier (R305, R307). -/
def State.lookBarrier (s : State) (t : Thread) (l : Loc) : State × Barrier :=
  let s := s.tick t.uid (agentT t.uid)
  let (s, bs) := s.readFor (agentT t.uid) (s.clkOf t.uid) 16 l 16
  (s, Barrier.ofBytes bs)

/-- R323: BEXP; a count that a race has left unbounded overflows or not as its free value says (R307). -/
def execBexp (a b : Name) (s : State) : Host.Outcome State Fault Refusal :=
  barrierWordOp (.bexp a b) a true s fun s t addr l =>
    let (s', old) := s.lookBarrier t l
    let n := (s.name t b).toNat
    if 2 ^ 32 ≤ old.expected + n then { s with fresh := s'.fresh }.trap t.uid 0x0D3 addr
    else
      (s'.flipBarrier (agentT t.uid) (s'.clkOf t.uid) l { old with expected := old.expected + n }
        (s'.barClock l).acc).finish t.uid

/-- A thread observes the last flip of a barrier (R305, R364). -/
def State.observeFlip (s : State) (t : Thread) (l : Loc) : State :=
  let c := (s.barClock l).flipped
  s.modThread t.uid fun x => x.learn c

/-- R324: BWAIT; the status word is returned as it stands (DESIGN CHOICE 98). -/
def execBwait (d a b : Name) (s : State) : Host.Outcome State Fault Refusal :=
  barrierWordOp (.bwait d a b) a false s fun s t _ l =>
    let (s', x) := s.lookBarrier t l
    if x.phase = (s.name t b).getLsbD 0 then s
    else (s'.observeFlip t l).result t d x.status

/-- R324: BTEST. -/
def execBtest (d : BitVec 3) (a b : Name) (s : State) : Host.Outcome State Fault Refusal :=
  barrierWordOp (.btest d a b) a false s fun s t _ l =>
    let (s', x) := s.lookBarrier t l
    let flipped := x.phase != (s.name t b).getLsbD 0
    (if flipped then s'.observeFlip t l else s').resultPred t d flipped

end Sys2Proof.Machine
end

