-- ==== Sys2Proof/Machine/Rings.lean ====
section
/-! DEFINITION. Rings and subscriptions (spec/14_async_copies.md R309 to R315, R326 to R328). -/
namespace Sys2Proof.Machine

open Sys2Proof

/-! ## Thread sides (R326, R327) -/

/-- A ring number is at or above the declared count (R309). -/
def ringCause (m : Member) (n : Nat) : Option (Nat × DWord) :=
  if m.desc.rings ≤ n then some (0x0D5, BitVec.ofNat 64 n) else none

/-- The threads are the ring's producer. -/
def Ring.threadProd (r : Ring) : Bool := !r.copyProd && !r.infeed
/-- The threads are the ring's consumer. -/
def Ring.threadCons (r : Ring) : Bool := !r.outfeed

/-- The slot at a local offset that is in a state. -/
def Ring.slotAt (r : Ring) (off : Word) (x : RingSlot) : Option Nat :=
  (List.range r.slots.length).find? fun i => r.offsetOf i == off.toNat && r.slotState i == x

/-- A ring instruction: its ring's number, the side it needs, then its effect (R326). -/
def ringWord (i : Instr) (n : BitVec 4) (side : Ring → Bool) (s : State)
    (body : State → Thread → Member → Ring → State) : Host.Outcome State Fault Refusal :=
  issueWord i s fun s t =>
    match s.member? t.member with
    | none => s
    | some m =>
      match ringCause m n.toNat with
      | some (c, x) => s.trap t.uid c x
      | none =>
        match m.ring? n.toNat with
        | none => s.trap t.uid 0x0D6 (n.setWidth 64)
        | some r => if side r then body s t m r else s.trap t.uid 0x0D6 (n.setWidth 64)

/-- A lower `%tid` of the thread's group stands at the same word (R326). -/
def State.lowerWaits (s : State) (t : Thread) : Bool :=
  s.threads.any fun x => x.standsAt t.crew t.pc && decide (x.tid < t.tid)

/-- R326: RINGPUSH.claim; the thread's writes to the slot follow what was done there before (R311). -/
def execRingpushClaim (d : Name) (a : BitVec 4) (s : State) : Host.Outcome State Fault Refusal :=
  ringWord (.ringpushClaim d a) a Ring.threadProd s fun s t m r =>
    if !r.canClaim || s.lowerWaits t then s
    else
      (s.modRing m.id r.num (Ring.doClaim t.uid)).result t d (BitVec.ofNat 32 (r.offsetOf r.claim))

/-- R326: RINGPUSH.fill; the thread's writes are performed first (R311). -/
def execRingpushFill (a : BitVec 4) (b : Name) (s : State) : Host.Outcome State Fault Refusal :=
  ringWord (.ringpushFill a b) a Ring.threadProd s fun s t m r =>
    let off := s.name t b
    if s.lowerWaits t then s
    else match r.slotAt off .claimed with
    | none => s.trap t.uid 0x0D6 (off.setWidth 64)
    | some i =>
      if !s.caughtUp t then s
      else
        let clk := s.clkOf t.uid
        (s.modRing m.id r.num fun r => r.move i .committed clk).finish t.uid

/-- R326: RINGPOP.take; every later access of the thread follows what the slot's producer did (R311). -/
def execRingpopTake (d : Name) (a : BitVec 4) (s : State) : Host.Outcome State Fault Refusal :=
  ringWord (.ringpopTake d a) a Ring.threadCons s fun s t m r =>
    if !r.canTake || s.lowerWaits t then s
    else
      let s := s.modRing m.id r.num (Ring.doTake t.uid)
      (s.modThread t.uid fun x => x.learn (r.slotClock r.take)).result t d
        (BitVec.ofNat 32 (r.offsetOf r.take))

/-- The local offset of a member that an address reaches, by either aperture (R202). -/
def State.ownOff (s : State) (m : Member) (addr : DWord) : Option Nat :=
  match s.target m addr 1 with
  | .ok (.scratch o off) => if o.id = m.id then some off else none
  | _ => none

/-- An extent of `n` bytes from an address overlaps local bytes of a member (R311). -/
def State.reaches (s : State) (m : Member) (addr : DWord) (n off len : Nat) : Bool :=
  (s.ownOff m addr).any fun o => overlaps o n off len

/-- A copy command touches local bytes of its member (R311): the remote side of a CPYN is elsewhere. -/
def State.copyTouches (s : State) (m : Member) (c : Copy) (off n : Nat) : Bool :=
  let reads : Bool := match c.kind with
    | .get _ => false
    | _ => s.reaches m c.src (regionBytes c.rows c.spitch c.rowbytes) off n
  let writes : Bool := match c.kind with
    | .put _ => false
    | _ => c.dests.any fun d => s.reaches m d.base (regionBytes c.rows c.dpitch c.rowbytes) off n
  reads || writes

/-- A matrix command touches local bytes of its member. -/
def State.matrixTouches (s : State) (m : Member) (k : MKind) (off n : Nat) : Bool :=
  match k with
  | .mld t o p _ => overlaps o (regionBytes (cfgRows t.word0) p (cfgRowBytes t.word0)) off n
  | .mst t o p _ => overlaps o (regionBytes (cfgRows t.word0) p (cfgRowBytes t.word0)) off n
  | .drainq f d sc _ c _ =>
    s.reaches m d (regionBytes (drainRows c) (drainPitch c) (drainRowBytes f c)) off n ||
      (f == .e2m1 && s.reaches m sc (drainScaleBytes c) off n)
  | .landing _ ws _ => ws.any fun w => s.reaches m w.1 w.2.length off n
  | _ => false

/-- A sieve command touches local bytes of its member: its sketch, or its page list and bitmap. -/
def SKind.touches (k : SKind) (off n : Nat) : Bool :=
  match k with
  | .skset _ o => overlaps o 32 off n
  | .sieve _ list entries _ bitmap _ _ _ _ => overlaps list (8 * entries) off n || overlaps bitmap entries off n

/-- A command that the thread issued is still under way on a slot's bytes. -/
def State.slotBusy (s : State) (t : Thread) (m : Member) (off n : Nat) : Bool :=
  (s.copies.any fun c => c.uid == t.uid && s.copyTouches m c off n) ||
  ((s.core t.core).mq.any fun q => q.uids.contains t.uid && s.matrixTouches m q.kind off n) ||
  (s.core t.core).sq.any fun q => q.uids.contains t.uid && q.kind.touches off n

/-- The agents of a command that is under way. -/
def State.agentsOf (s : State) (i : Nat) : List Nat :=
  match s.copies.find? fun c => c.id == i with
  | some c => c.kind.agents c.id
  | none => [agentC i]

/-- What a thread's release of a slot carries: all it has done but its commands still under way (R311). -/
def State.releaseClock (s : State) (t : Thread) : Clock :=
  let live := ([Path.c, .m, .i, .s, .n].flatMap fun p => s.liveOf t p).flatMap s.agentsOf
  (((s.thread? t.uid).map Thread.allIssued).getD []).filter fun x => !live.contains x.1

/-- R326: RINGPOP.free; the thread's accesses to the slot come first (R311). -/
def execRingpopFree (a : BitVec 4) (b : Name) (s : State) : Host.Outcome State Fault Refusal :=
  ringWord (.ringpopFree a b) a Ring.threadCons s fun s t m r =>
    let off := s.name t b
    if s.lowerWaits t then s
    else match r.slotAt off .held with
    | none => s.trap t.uid 0x0D6 (off.setWidth 64)
    | some i =>
      if !s.caughtUp t || s.slotBusy t m off.toNat r.bytes then s
      else
        let clk := s.releaseClock t
        (s.modRing m.id r.num fun r => r.move i .released clk).finish t.uid

/-- Slots of a ring in some states. -/
def Ring.count (r : Ring) (xs : List RingSlot) : Nat := (r.slots.filter fun x => xs.contains x.1).length

/-- The subscription of a ring. -/
def State.subOf (s : State) (member ring : Nat) : Option Sub :=
  s.subs.find? fun x => x.member == member && x.ring == ring

/-- The answer of RINGQ (R327). -/
def State.ringAnswer (s : State) (m : Member) (n : Nat) (sel : BitVec 2) : Word :=
  match m.ring? n with
  | none => 0
  | some r =>
    match sel.toNat with
    | 0 => BitVec.ofNat 32 (r.count [.free] + 2 ^ 8 * r.count [.claimed, .committed] +
        2 ^ 16 * r.count [.filled] + 2 ^ 24 * r.count [.held, .released])
    | 1 => r.config
    | 2 => BitVec.ofNat 32 (((s.subOf m.id n).map fun x => x.count - x.next).getD 0)
    | _ => BitVec.ofNat 32 r.base

/-- R327: RINGQ. -/
def execRingq (d : Name) (a : BitVec 4) (sel : BitVec 2) (s : State) : Host.Outcome State Fault Refusal :=
  issueWord (.ringq d a sel) s fun s t =>
    match s.member? t.member with
    | none => s
    | some m =>
      match ringCause m a.toNat with
      | some (c, x) => s.trap t.uid c x
      | none => s.result t d (s.ringAnswer m a.toNat sel)

/-! ## Configuration (R312, R313, R328) -/

/-- The forms of RINGSUB. -/
inductive RingForm where
  | threads | infeed | outfeed
  deriving DecidableEq, Repr

/-- The ring number of a configuration word (R312). -/
def cfgRing (w : Word) : Nat := (w.extractLsb' 17 4).toNat
/-- The slot count. -/
def cfgSlots (w : Word) : Nat := (w.extractLsb' 0 6).toNat + 1
/-- The slot bytes. -/
def cfgSlotBytes (w : Word) : Nat := 256 * ((w.extractLsb' 6 8).toNat + 1)
/-- The word unconfigures its ring (R312). -/
def cfgClears (w : Word) : Bool := w.extractLsb' 0 15 == 0
/-- The reserved bits are zero. -/
def cfgReservedOk (w : Word) : Bool := w.extractLsb' 21 11 == 0 && w.extractLsb' 15 2 == 0

/-- The tile block of a subscription (R313). -/
structure TileBlock where
  base : DWord
  rowBytes : Nat
  rows : Nat
  pitch : Nat
  step : Nat
  count : Nat
  deriving DecidableEq, Repr

/-- The tile block at a block of eight names. -/
def State.tileBlock (s : State) (t : Thread) (a : Name) : TileBlock :=
  let tb := (s.name t (nameAt a 4)).toNat
  let w := s.name t (nameAt a 5)
  ⟨pairWord (s.name t (nameAt a 2)) (s.name t (nameAt a 3)), tb, (w.extractLsb' 0 16).toNat,
    pitchOf (w.extractLsb' 16 16).toNat tb, 64 * (s.name t (nameAt a 6)).toNat,
    (s.name t (nameAt a 7)).toNat⟩

/-- The slots of a configuration lie where R309 allows. -/
def Member.slotsOk (m : Member) (w : Word) (base : Nat) : Bool :=
  let n := cfgSlots w * cfgSlotBytes w
  decide (base + n ≤ m.scratchBytes) &&
    !(m.regions.any fun r => overlaps r.off (r.units * 65536) base n) &&
    !(m.rings.any fun r => r.num != cfgRing w && overlaps r.base (r.slots.length * r.bytes) base n)

/-- The block of a RINGSUB that configures is invalid (R328). -/
def Member.ringsubBad (m : Member) (form : RingForm) (w base : Word) (b : TileBlock) : Bool :=
  cfgSlots w == 1 || base.toNat % 256 != 0 || !m.slotsOk w base.toNat ||
    (form != .threads && (b.rowBytes == 0 || decide (65536 < b.rowBytes) || b.rows == 0 || b.count == 0 ||
      decide (cfgSlotBytes w < b.rows * b.rowBytes) || b.base.toNat % 64 != 0)) ||
    (form == .infeed && w.getLsbD 14)

/-- The first address of tile t (R313). -/
def TileBlock.tileBase (b : TileBlock) (t : Nat) : Nat := b.base.toNat + b.step * t
/-- Bytes from the first to the last byte of a tile. -/
def TileBlock.tileBytes (b : TileBlock) : Nat := regionBytes b.rows b.pitch b.rowBytes

/-- Every tile's extent lies in the partition's memory ranges (R328). -/
def TileBlock.inRanges (b : TileBlock) (ranges : List (DWord × DWord)) : Bool :=
  Machine.inRanges ranges (b.tileBase 0) (b.step * (b.count - 1) + b.tileBytes) ||
    (List.range b.count).all fun t => Machine.inRanges ranges (b.tileBase t) b.tileBytes

/-- A new ring, every slot Free (R310). -/
def newRing (form : RingForm) (w base : Word) : Ring where
  num := cfgRing w
  config := w
  base := base.toNat
  bytes := cfgSlotBytes w
  copyProd := form != .infeed && w.getLsbD 14
  infeed := form == .infeed
  outfeed := form == .outfeed
  slots := List.replicate (cfgSlots w) (.free, [])
  holders := []
  past := []
  claim := 0
  take := 0

/-- A subscription ends: its accesses count among those of its member, of its crew and of the thread that configured
it (R359, R366, R368). -/
def State.endSub (s : State) (x : Sub) (clk : Clock) : State :=
  let s := s.modMember x.member fun m => { m with did := Clock.join m.did clk }
  let s := s.modCrew x.crew fun c => { c with did := Clock.join c.did clk }
  { s with
    subs := s.subs.filter fun y => y.id != x.id
    threads := updateIf s.threads (fun t => t.uid == x.uid) fun t =>
      { t with issued := joinPath t.issued .i clk } }

/-- Some subscriptions stop after their tile (R302, R315). -/
def State.endSubs (s : State) (xs : List Sub) : State :=
  match xs with
  | [] => s
  | x :: rest => State.endSubs (s.endSub x x.clk) rest

/-- A ring is unconfigured: its subscription stops, its slot states are dropped, and a copy that waits on
it ends (R315). -/
def State.clearRing (s : State) (member n : Nat) : State :=
  let s := s.modMember member fun m => { m with rings := m.rings.filter fun r => r.num != n }
  let s := s.endSubs (s.subs.filter fun x => x.member == member && x.ring == n)
  let drop (c : Copy) : Copy :=
    if c.started then { c with slot := none } else { c with started := true, fail := some (0, 0, 0) }
  { s with copies := updateIf s.copies (fun c => c.member == member && c.ring == some n) drop }

/-- The stack that homes the page of a shared address; nothing while the page is not there (R313). -/
def State.stackAt (s : State) (part : Nat) (addr : DWord) : Option Nat :=
  (s.walk (s.rootOf part) addr.toNat).map fun w => stackOf w.pa

/-- A ring is configured, with its subscription. -/
def State.configureRing (s : State) (t : Thread) (m : Member) (form : RingForm) (w base : Word)
    (b : TileBlock) (stack : Nat) : State :=
  let s := s.modMember m.id fun x =>
    { x with rings := sortBy (·.num) (upsert x.rings (fun r => r.num == cfgRing w) (newRing form w base)) }
  match form with
  | .threads => s
  | _ =>
    let i := s.nextId
    let x : Sub := ⟨i, m.id, t.uid, s.crewFor t, cfgRing w, form == .infeed, stack, b.base, b.rowBytes,
      b.rows, b.pitch, b.step, b.count, 0, t.fenced .i, s.beforeCommand [t] .i⟩
    { s with nextId := i + 1, subs := s.subs ++ [x] }

/-- The status of a RINGSUB that configures, or nothing while it waits for the page of its base (R328). -/
def State.ringsubStatus (s : State) (m : Member) (form : RingForm) (w : Word) (b : TileBlock) : Option Nat :=
  let busy := (m.ring? (cfgRing w)).any fun r => r.slots.any fun x => x.1 != .free
  if busy || (s.subOf m.id (cfgRing w)).isSome then some 1
  else if form = .threads then some 0
  else if !b.inRanges (s.rangesOf m.part) then some 3
  else match s.stackAt m.part b.base with
    | none => none
    | some k => if 16 ≤ (s.subs.filter fun x => x.stack == k).length then some 2 else some 0

/-- R328: the three forms of RINGSUB. -/
def ringsub (i : Instr) (form : RingForm) (d a : Name) (s : State) : Host.Outcome State Fault Refusal :=
  issueWord i s fun s t =>
    match s.member? t.member with
    | none => s
    | some m =>
      let w := s.name t a
      let base := s.name t (nameAt a 1)
      let b := s.tileBlock t a
      if !cfgReservedOk w then s.trap t.uid 0x0D7 (w.setWidth 64)
      else if m.desc.rings ≤ cfgRing w then s.trap t.uid 0x0D5 (BitVec.ofNat 64 (cfgRing w))
      else if cfgClears w then (s.clearRing m.id (cfgRing w)).result t d 0
      else if m.ringsubBad form w base b then s.trap t.uid 0x0D7 (w.setWidth 64)
      else match s.ringsubStatus m form w b with
        | none => s.noteFault m.part (b.base.toNat / 65536)
        | some 0 =>
          (s.configureRing t m form w base b ((s.stackAt m.part b.base).getD 0)).result t d 0
        | some k => s.result t d (BitVec.ofNat 32 k)

/-- R328: RINGSUB. -/
def execRingsub (d a : Name) (s : State) : Host.Outcome State Fault Refusal :=
  ringsub (.ringsub d a) .threads d a s
/-- R328: RINGSUB.in. -/
def execRingsubIn (d a : Name) (s : State) : Host.Outcome State Fault Refusal :=
  ringsub (.ringsubIn d a) .infeed d a s
/-- R328: RINGSUB.out. -/
def execRingsubOut (d a : Name) (s : State) : Host.Outcome State Fault Refusal :=
  ringsub (.ringsubOut d a) .outfeed d a s

/-! ## Tiles (R314) -/

/-- The tile block of a subscription. -/
def Sub.block (x : Sub) : TileBlock := ⟨x.base, x.rowBytes, x.rows, x.pitch, x.step, x.count⟩

/-- The pieces of row i of the subscription's next tile (R313). -/
def Sub.globalRow (x : Sub) (i : Nat) : List Piece :=
  piecesOf (!x.infeed) (BitVec.ofNat 64 (x.block.tileBase x.next + x.pitch * i)) x.rowBytes
/-- The pieces of row i of a ring slot. -/
def Sub.slotRow (x : Sub) (off i : Nat) : List Piece :=
  piecesOf x.infeed (localBase + BitVec.ofNat 64 (off + i * x.rowBytes)) x.rowBytes

/-- The pieces of each row of the tile at a slot, what is read first. -/
def Sub.rowPieces (x : Sub) (off : Nat) : List (List Piece) :=
  (List.range x.rows).map fun i =>
    if x.infeed then x.globalRow i ++ x.slotRow off i else x.slotRow off i ++ x.globalRow i

/-- A page of a piece that is there is homed on another stack than the unit's (R314). -/
def State.foreign (s : State) (x : Sub) (part : Nat) (p : Piece) : Bool :=
  decide (p.addr.toNat < sharedEnd) && (s.stackAt part p.addr).any fun k => k != x.stack

/-- How far the tile comes: a page that another stack homes ends it with no underlying cause (R314). -/
def State.tileReach (s : State) (x : Sub) (part : Nat) (rows : List (List Piece)) (n : Nat) : Reach :=
  match rows with
  | [] => .rows n none
  | r :: rest =>
    match r.find? fun p => s.foreign x part p with
    | some p => .rows n (some (0, p.addr))
    | none =>
      match s.checkPieces x.member r with
      | .ok => State.tileReach s x part rest (n + 1)
      | .wait c => .wait c
      | .fail c a => .rows n (some (c, a))

/-- Who makes the subscription's accesses. -/
def Sub.actor (x : Sub) (clk : Clock) (core : Nat) : Actor := ⟨agentC x.id, clk, x.member, core, .i⟩

/-- Moves the first n rows of the tile from row i on. -/
def State.moveTile (s : State) (x : Sub) (a : Actor) (off i n : Nat) : State :=
  match n with
  | 0 => s
  | n + 1 =>
    let source := if x.infeed then x.globalRow i else x.slotRow off i
    let target := if x.infeed then x.slotRow off i else x.globalRow i
    let (s, bs) := s.readPieces a source
    State.moveTile (s.writePieces a target bs) x a off (i + 1) n

/-- A subscription ends by a failure, some rows into its next tile: its cause goes to the thread that configured it,
with a record of the rows and bytes that it moved in all its tiles (R314, R316). -/
def State.failSub (s : State) (x : Sub) (under rows : Nat) (addr : DWord) (clk : Clock) : State :=
  let all := x.next * x.rows + rows
  let r : Progress := ⟨0x0DC, under, 0xFFFFFFFF, addr, all, all * x.rowBytes, 0, 0⟩
  (s.endSub x clk).deliver x.member x.crew x.uid
    ⟨0x0DC, addr, some r, false⟩

/-- The subscription goes on to its next tile, or ends after the last (R314). -/
def State.nextTile (s : State) (x : Sub) (clk : Clock) : State :=
  if x.next + 1 < x.count then
    { s with subs := updateIf s.subs (fun y => y.id == x.id) fun y => { y with next := x.next + 1, clk := clk } }
  else s.endSub x clk

/-- One tile of a subscription: its slot is claimed or taken, its rows move, and the slot is committed or
released, a push or pop that wakes the core; a failure leaves the slot Claimed or Held (R83, R314). What comes before its
accesses to the slot comes before its later tiles (R311). -/
def State.runTile (s : State) (x : Sub) (m : Member) (r : Ring) : State :=
  let i := if x.infeed then r.claim else r.take
  let off := r.offsetOf i
  let clk := Clock.raise x.clk (agentC x.id) (x.next + 1)
  let after := if x.infeed then clk else Clock.join clk (r.slotClock i)
  match s.tileReach x m.part (x.rowPieces off) 0 with
  | .wait w => s.waitOn m.part (x.actor clk m.core) w
  | .rows n fail =>
    let s := s.modRing m.id r.num (if x.infeed then Ring.doClaim x.id else Ring.doTake x.id)
    let s := s.moveTile x (x.actor clk m.core) off 0 n
    match fail with
    | some (c, addr) => s.failSub x c n addr after
    | none =>
      let s := s.modRing m.id r.num fun y => y.move i (if x.infeed then .committed else .released) clk
      (s.nextTile x after).wakeMember m.id

/-- The subscription's event: its slot is ready for it (R310, R314). -/
def tileEvent (infeed : Bool) (s : State) : Host.Outcome State Fault Refusal :=
  match s.input with
  | .id i =>
    match s.subs.find? fun x => x.id == i && x.infeed == infeed with
    | none => .next s
    | some x =>
      match s.member? x.member with
      | none => .next s
      | some m =>
        match m.ring? x.ring with
        | none => .next s
        | some r =>
          let ready := if infeed then r.canClaim else r.canTake
          if ready && s.allDone x.after && s.settled x.clk then .next (s.runTile x m r) else .next s
  | _ => .next s

/-- INFEED_TILE (R314). -/
def execInfeedTile (s : State) : Host.Outcome State Fault Refusal := tileEvent true s
/-- OUTFEED_TILE (R314). -/
def execOutfeedTile (s : State) : Host.Outcome State Fault Refusal := tileEvent false s

end Sys2Proof.Machine
end

