-- ==== Sys2Proof/Machine/Pages.lean ====
section
/-! DEFINITION. Nymesque's work on the page tables (spec/09_memory_access.md R207 to R213): installing
pages, the service of page faults, changing entries, and the heat sweep. -/
namespace Sys2Proof.Machine

open Sys2Proof

/-- Bytes of a frame and of a table. -/
def frameBytes : Nat := 65536

/-- The first of the runs of n frames from a first one on, one behind the other, that holds no uncorrectable error;
each run passed over holds one of the `fuel` bytes that do. -/
def State.soundRun (s : State) (n fuel first : Nat) : Nat :=
  match fuel with
  | 0 => first
  | fuel + 1 =>
    if s.broken.any fun l => l.space == 0 && decide (first ≤ l.off / frameBytes) && decide (l.off / frameBytes < first + n)
    then State.soundRun s n fuel (first + n)
    else first

/-- A run of fresh frames that ascends from an address aligned to its size (R209), never used before and without an
uncorrectable error, and the state that has taken it (DESIGN CHOICE 10). -/
def State.takeRun (s : State) (n : Nat) : Nat × State :=
  let first := s.soundRun n s.broken.length ((s.nextFrame + n - 1) / n * n)
  (first * frameBytes, { s with nextFrame := first + n })

/-- A fresh frame of device memory (DESIGN CHOICE 10). -/
def State.takeFrame (s : State) : Nat × State := s.takeRun 1

/-- Writes a table entry. -/
def State.setEntry (s : State) (a : Nat) (e : DWord) : State :=
  { s with mem := s.mem.put a (leBytes 8 e.toNat) }

/-- An entry that points to a table (R208). -/
def tableEntry (pa : Nat) : DWord := BitVec.ofNat 64 (pa / frameBytes * frameBytes + 1)
/-- A writable 64 KiB leaf with nc = 0 (R208), which a first touch installs (R213) (DESIGN CHOICE 108). -/
def leafEntry (pa : Nat) : DWord := BitVec.ofNat 64 (pa / frameBytes * frameBytes + 7)

/-- The size field of an entry (R208). -/
def entrySize (e : DWord) : Nat := (e.extractLsb' 8 2).toNat
/-- The 64 KiB pages that a leaf's page holds (R209). -/
def spanOf (size : Nat) : Nat := if size = 0 then 1 else if size = 1 then 32 else 16384
/-- The entries that make the page of a leaf: 32 of level 3, two of level 2, or the leaf alone (R209). -/
def runEntries (a size : Nat) : List Nat :=
  let n := if size = 0 then 1 else if size = 1 then 32 else 2
  (List.range n).map fun i => a / (8 * n) * (8 * n) + 8 * i

/-- Changes some entries. -/
def State.mapEntries (s : State) (as : List Nat) (f : DWord → DWord) : State :=
  as.foldl (fun s a => s.setEntry a (f (s.entryAt a))) s

/-- The table that an entry of a level points to, a fresh one when the entry is invalid or a leaf. -/
def State.tableAt (s : State) (a level : Nat) : Nat × State :=
  let e := s.entryAt a
  if entryOk e level && !e.getLsbD 1 then (entryFrame e, s)
  else
    let (pa, s) := s.takeFrame
    (pa, s.setEntry a (tableEntry pa))

/-- Installs the page of an invalid leaf (R213): zero-filled on first touch, or the page that Nymesque
removed from there before. -/
def State.fillLeaf (s : State) (a : Nat) : State :=
  let e := s.entryAt a
  if entryOk e 3 then s
  else if entryFrame e ≠ 0 then s.mapEntries (runEntries a (entrySize e)) (· ||| 1)
  else
    let (pa, s) := s.takeFrame
    s.setEntry a (leafEntry pa)

/-- The address of the level-1 entry of a page. -/
def State.entry1 (s : State) (part page : Nat) : Nat := s.rootOf part + 8 * (page / 2 ^ 26 % 8192)

/-- Installs a page of a partition (R207, R213). -/
def State.installPage (s : State) (part page : Nat) : State :=
  let (t2, s) := s.tableAt (s.entry1 part page) 1
  let a2 := t2 + 8 * (page / 2 ^ 13 % 8192)
  let e2 := s.entryAt a2
  if e2.getLsbD 1 then (if entryOk e2 2 then s else s.mapEntries (runEntries a2 2) (· ||| 1))
  else
    let (t3, s) := s.tableAt a2 2
    s.fillLeaf (t3 + 8 * (page % 8192))

/-- Installs the page of an address of the partition's ranges when it is not there. -/
def State.touch (s : State) (part va : Nat) : State :=
  if (s.walk (s.rootOf part) va).isNone && s.pageInRanges part (va / 65536) then
    s.installPage part (va / 65536)
  else s

/-- The addresses that an operation may reach, in the order of its checks. -/
def MemOp.addrs (op : MemOp) : List DWord :=
  match op with
  | .table a i _ => [a, a + 4, a + 8 + 4 * i.setWidth 64]
  | op => op.needs.map (·.addr)

/-- The generic address at which a member's operation meets the absent page (R232, R432). -/
def State.faultAddr (s : State) (m : Member) (op : MemOp) (page : Nat) : DWord :=
  (op.addrs.find? fun a => match s.check m ⟨a, 1, false, false⟩ with
    | .absent p => p == page
    | _ => false).getD 0

/-- The global address of the first marked line of a region that lies on a page. -/
def State.lineOn (s : State) (t : Thread) (off page : Nat) : DWord :=
  match (s.member? t.member).bind fun m => m.regions.find? fun r => r.off == off with
  | none => 0
  | some r => ((r.marked.map fun x => r.lineAddr x.1).find? fun a => a.toNat / 65536 == page).getD 0

/-- A thread is parked at a page of a partition. -/
def State.parkedAt (s : State) (part page : Nat) (t : Thread) : Bool :=
  match t.wait with
  | .parked _ p => p == page && ((s.member? t.member).map (·.part)) == some part
  | _ => false

/-- Parked threads re-execute their instruction (R213). -/
def State.unpark (s : State) (part page : Nat) : State :=
  { s with threads := updateIf s.threads (s.parkedAt part page) fun t => { t with wait := .none } }

/-- Parked threads of a page outside the partition's ranges trap (R213); a write-back fails its
instruction with cause 0x08A (R229). -/
def State.declineParked (s : State) (ts : List Thread) : State :=
  match ts with
  | [] => s
  | t :: rest =>
    let s := match t.wait with
      | .parked (.flush off _) page => s.trap t.uid 0x08A (s.lineOn t off page)
      | .parked op page => s.trap t.uid 0x085 (((s.member? t.member).map fun m => s.faultAddr m op page).getD 0)
      | _ => s
    State.declineParked s rest

/-- PAGE_FAULT_SERVICE (R213): Nymesque services the fault on the page of the partition; it declines one once
every lane that the trap would end can end (R424). -/
def execPageFaultService (s : State) : Host.Outcome State Fault Refusal :=
  match s.input with
  | .page part page =>
    if !s.faults.contains (part, page) then .next s
    else
      let t := { s with faults := s.faults.filter fun f => f != (part, page) }
      let parked := s.threads.filter (s.parkedAt part page)
      if s.pageInRanges part page then .next ((t.installPage part page).unpark part page)
      else if parked.any fun x => s.trapHeld x.uid then .next s
      else .next (t.declineParked parked)
  | _ => .next s

/-! ## Changing entries (R212) -/

/-- A location moves from a frame to another. -/
def moveLoc (old new : Nat) (l : Loc) : Loc :=
  if l.space = 0 ∧ l.off / frameBytes = old then { l with off := new * frameBytes + l.off % frameBytes } else l

/-- The contents of a frame move to another. -/
def moveBytes (mem : Memory) (old new : Nat) : Memory :=
  let isOld (x : Nat × BitVec 8) : Bool := x.1 / frameBytes == old
  (mem.filter isOld).foldl (fun m x => Map.set (w := 8) m (new * frameBytes + x.1 % frameBytes) x.2)
    (mem.filter fun x => !isOld x)

/-- Nymesque moves a page to another frame, with everything that names its bytes. -/
def State.moveFrame (s : State) (old new : Nat) : State :=
  { s with
    mem := moveBytes s.mem old new
    poison := s.poison.map fun p => if p / 16 = old then new * 16 + p % 16 else p
    broken := s.broken.map (moveLoc old new)
    shadow := s.shadow.map fun x => { x with loc := moveLoc old new x.loc }
    releases := s.releases.map fun x => { x with loc := moveLoc old new x.loc }
    threads := s.threads.map fun t => { t with monitor := t.monitor.map fun m =>
      { m with loc := moveLoc old new m.loc } } }

/-- An access that translated before is still on its way to a frame (R212). -/
def State.frameInUse (s : State) (frame : Nat) : Bool :=
  s.flights.any fun f => !f.applied && f.op.loc.any fun l => l.space == 0 && l.off / frameBytes == frame

/-- The frame of a page, mapped or removed, that its entry names. -/
def State.frameOf (s : State) (part page : Nat) : Option Nat :=
  let e1 := s.entryAt (s.entry1 part page)
  let e2 := s.entryAt (entryFrame e1 + 8 * (page / 2 ^ 13 % 8192))
  let e3 := s.entryAt (entryFrame e2 + 8 * (page % 8192))
  if !entryOk e1 1 then none
  else if e2.getLsbD 1 then some (entryFrame e2 / 2 ^ 29 * 2 ^ 13 + page % 8192)
  else if !entryOk e2 2 || entryFrame e3 == 0 then none
  else some (entryFrame e3 / frameBytes)

/-- The bits of a leaf that a rewrite carries: heats, nc and w (R208). -/
def leafBits : DWord := 0xF00000000000000C
/-- A valid leaf of a size over a frame (R208). -/
def pageLeaf (bits : DWord) (pa size : Nat) : DWord :=
  (bits &&& leafBits) ||| BitVec.ofNat 64 (pa / frameBytes * frameBytes + size * 256 + 3)

/-- Maps pages from a first one on over ascending frames by level-3 leaves of a size. -/
def State.mapSmall (s : State) (part first : Nat) (bits : DWord) (pa size n : Nat) : State :=
  match n with
  | 0 => s
  | n + 1 =>
    let (t2, s) := s.tableAt (s.entry1 part first) 1
    let (t3, s) := s.tableAt (t2 + 8 * (first / 2 ^ 13 % 8192)) 2
    State.mapSmall (s.setEntry (t3 + 8 * (first % 8192)) (pageLeaf bits pa size)) part (first + 1) bits
      (pa + frameBytes) size n

/-- Maps a 1 GiB page by its two level-2 leaves (R209). -/
def State.mapLarge (s : State) (part first : Nat) (bits : DWord) (pa : Nat) : State :=
  let (t2, s) := s.tableAt (s.entry1 part first) 1
  let a := t2 + 8 * (first / 2 ^ 13 % 8192)
  (s.setEntry a (pageLeaf bits pa 2)).setEntry (a + 8) (pageLeaf bits (pa + 2 ^ 29) 2)

/-- Maps pages over ascending frames by leaves of a size (R209). -/
def State.mapRun (s : State) (part first : Nat) (bits : DWord) (pa size n : Nat) : State :=
  if size = 2 then s.mapLarge part first bits pa else s.mapSmall part first bits pa size n

/-- Nymesque rewrites the page of a leaf as the new entry says (R209, R212): with its permission, cache bit
and heats alone when frame and size stay; cut into leaves of a smaller size over the same frames; else moved,
with the pages around it that its new size takes in, to a run of fresh frames. -/
def State.rewritePage (s : State) (part page : Nat) (w : Walk) (e : DWord) : State :=
  let z := entrySize w.leaf
  let n := Nat.max (spanOf (entrySize e)) (spanOf z)
  let first := page / n * n
  if entrySize e = z ∧ entryFrame e = entryFrame w.leaf then
    s.mapEntries (runEntries w.leafAt z) fun x => (x &&& ~~~leafBits) ||| (e &&& leafBits)
  else if entrySize e < z then
    s.mapRun part first e ((w.pa / frameBytes - page % n) * frameBytes) (entrySize e) n
  else if entrySize e = 3 ∨ ¬inRanges (s.rangesOf part) (first * frameBytes) (n * frameBytes) then s
  else
    let old (i : Nat) : Option Nat := s.frameOf part (first + i)
    let (pa, t) := s.takeRun n
    let t := (List.range n).foldl (fun t i => match old i with
      | none => t
      | some f => t.moveFrame f (pa / frameBytes + i)) t
    t.mapRun part first e pa (entrySize e) n

/-- TRANSLATION_INVALIDATE (R212): Nymesque rewrites or removes the page of an address, once every access that
translated to its frames, or to those of the pages that its new size takes in, is performed. -/
def execTranslationInvalidate (s : State) : Host.Outcome State Fault Refusal :=
  match s.input with
  | .entry part va e =>
    match s.walk (s.rootOf part) va.toNat with
    | none => .next s
    | some w =>
      let page := va.toNat / frameBytes
      let z := entrySize w.leaf
      let n := Nat.max (spanOf (entrySize e)) (spanOf z)
      let busy (i : Nat) : Bool := (s.frameOf part (page / n * n + i)).any s.frameInUse
      if (List.range n).any busy then .next s
      else if !e.getLsbD 0 then .next (s.mapEntries (runEntries w.leafAt z) (· &&& ~~~1))
      else .next (s.rewritePage part page w e)
  | _ => .next s

/-! ## The heat sweep (R211) -/

/-- The addresses of a table's entries that are not zero. -/
def State.entriesIn (s : State) (base : Nat) : List Nat :=
  (((s.mem.filter fun x => decide (base ≤ x.1) && decide (x.1 < base + frameBytes)).map fun x =>
    x.1 / 8 * 8)).eraseDups

/-- The addresses of the valid leaves below a root (R207). -/
def State.leaves (s : State) (root : Nat) : List Nat :=
  let ones := (s.entriesIn root).filter fun a => entryOk (s.entryAt a) 1
  let twos := (ones.flatMap fun a => s.entriesIn (entryFrame (s.entryAt a))).filter fun a =>
    entryOk (s.entryAt a) 2
  let big := twos.filter fun a => (s.entryAt a).getLsbD 1
  let small := (twos.filter fun a => !(s.entryAt a).getLsbD 1).flatMap fun a =>
    s.entriesIn (entryFrame (s.entryAt a))
  big ++ small.filter fun a => entryOk (s.entryAt a) 3

/-- Each nonzero heat lowered by one (R211). -/
def cool (e : DWord) : DWord :=
  let e := if (e >>> 62) &&& 3 = 0 then e else e - (1#64 <<< 62)
  if (e >>> 60) &&& 3 = 0 then e else e - (1#64 <<< 60)

/-- Lowers the heats of some leaves. -/
def State.coolAll (s : State) (as : List Nat) : State :=
  match as with
  | [] => s
  | a :: rest => State.coolAll (s.setEntry a (cool (s.entryAt a))) rest

/-- HEAT_SWEEP (R211): the sweeper of the partition named by the input visits every valid leaf, once in
each period of 2^j cycles. -/
def execHeatSweep (s : State) : Host.Outcome State Fault Refusal :=
  match s.input with
  | .id part =>
    match s.part? part with
    | none => .next s
    | some p =>
      if s.clock < p.sweepAt then .next s
      else
        let next := s.clock + BitVec.ofNat 64 (2 ^ sweepExpOf p.cfg)
        .next ((s.coolAll (s.leaves p.root)).modPart part fun x => { x with sweepAt := next })
  | _ => .next s

end Sys2Proof.Machine
end

