-- ==== Sys2Proof/Machine/Kv.lean ====
section
/-! DEFINITION. The KV unit (spec/15_kv_sieve.md R330 to R346): the inverted table, sequences, the steps of
the KV instructions, and pages outside the package. -/
namespace Sys2Proof.Machine

open Sys2Proof

/-! ## Checksums -/

/-- One bit of a reflected cyclic redundancy check. -/
def crcBit (poly c : Word) : Word := if c.getLsbD 0 then (c >>> 1) ^^^ poly else c >>> 1
/-- One byte of a reflected cyclic redundancy check. -/
def crcByte (poly c : Word) (b : Byte) : Word :=
  (List.range 8).foldl (fun c _ => crcBit poly c) (c ^^^ b.setWidth 32)
/-- A reflected 32-bit cyclic redundancy check of bytes, all ones before and inverted after. -/
def crc32 (poly : Word) (bs : List Byte) : Word := ~~~(bs.foldl (crcByte poly) 0xFFFFFFFF)
/-- CRC-32C (R335). -/
def crc32c (bs : List Byte) : Word := crc32 0x82F63B78 bs

/-! ## Pages and entries (R331 to R335) -/

/-- Tokens of a page by its format (R331). -/
def pageTokens (fp8 : Bool) : Nat := if fp8 then 128 else 64
/-- The number that names nothing (R333, R343). -/
def kvNone : Word := 0xFFFFFFFF

/-- A sequence that no KVALLOC has created. -/
def Seq.empty (q : Nat) : Seq := ⟨q, 0, false, false, false, 0, 0, none, 0, 0, 0, 0, []⟩
/-- The descriptor of a sequence. -/
def KvUnit.seq (u : KvUnit) (q : Nat) : Seq := (u.seqs.find? fun s => s.num == q).getD (Seq.empty q)
/-- Changes a descriptor. -/
def KvUnit.modSeq (u : KvUnit) (q : Nat) (f : Seq → Seq) : KvUnit :=
  { u with seqs := upsert u.seqs (fun s => s.num == q) (f (u.seq q)) }

/-- The flags byte of an entry (R334). -/
def KvEntry.flags (e : KvEntry) : Nat :=
  (if e.valid then 1 else 0) + (if e.resident then 2 else 0) + (if e.transit then 4 else 0) +
    (if e.poisoned then 8 else 0) + (if e.fp8 then 16 else 0) + if e.provisional then 32 else 0

/-- Bytes 0 to 15 of an entry (R334, R339). -/
def KvEntry.head16 (e : KvEntry) : List Byte :=
  leBytes 4 e.key.seq ++ leBytes 1 e.tenant ++ leBytes 1 e.flags ++ leBytes 2 e.key.layer ++
    leBytes 2 e.key.head ++ leBytes 1 e.count ++ leBytes 1 0 ++ leBytes 4 e.key.block

/-- Changes the entry of a page. -/
def KvUnit.modEntry (u : KvUnit) (page : Nat) (f : KvEntry → KvEntry) : KvUnit :=
  { u with entries := updateIf u.entries (fun e => e.page == page) f }
/-- The valid entry of a page. -/
def KvUnit.entry? (u : KvUnit) (page : Nat) : Option KvEntry :=
  u.entries.find? fun e => e.page == page && e.valid

/-- The home index of a key (R335). -/
def homeIndex (k : KvKey) (pages : Nat) : Nat :=
  (crc32c (leBytes 4 k.seq ++ leBytes 2 k.layer ++ leBytes 2 k.head ++ leBytes 4 k.block)).toNat % pages

/-- The pages that a lookup examines first (R335). -/
def probes (h pages : Nat) : List Nat := (List.range 8).map fun i => (h + i) % pages

/-- The pages of an overflow list from a page on, with fuel for each entry. -/
def KvUnit.walkList (u : KvUnit) (fuel : Nat) (page : Option Nat) : List Nat :=
  match fuel, page with
  | fuel + 1, some p => p :: KvUnit.walkList u fuel ((u.entry? p).bind (·.next))
  | _, _ => []

/-- The pages that a lookup examines, in order (R335). -/
def KvUnit.candidates (u : KvUnit) (pages : Nat) (k : KvKey) : List Nat :=
  let h := homeIndex k pages
  probes h pages ++ u.walkList u.entries.length (assoc u.heads h)

/-- The entry that a lookup of a key finds (R335). -/
def KvUnit.lookup (u : KvUnit) (pages : Nat) (k : KvKey) : Option KvEntry :=
  (u.candidates pages k).findSome? fun p =>
    (u.entry? p).bind fun e => if e.key = k then some e else none

/-- Pages that an allocation cannot take: those of valid entries, and poisoned ones (R341). -/
def KvUnit.taken (u : KvUnit) : List Nat := (u.entries.filter fun e => e.valid || e.poisoned).map (·.page)

/-- An entry takes its page: the lowest-probed invalid entry, or the lowest-numbered of the table at the
front of the overflow list (R335); nothing when the table is full. -/
def KvUnit.place (u : KvUnit) (pages : Nat) (e : KvEntry) : Option (KvUnit × Nat) :=
  let used := u.taken
  let h := homeIndex e.key pages
  let put (page : Nat) (next : Option Nat) : KvUnit :=
    let old := ((u.entries.find? fun x => x.page == page).map (·.wcount)).getD 0
    let new : KvEntry := { e with page := page, next := next, wcount := old }
    { u with entries := upsert u.entries (fun x => x.page == page) new }
  match (probes h pages).find? fun p => !used.contains p with
  | some p => some (put p none, p)
  | none =>
    match lowestFree used pages with
    | none => none
    | some p => some ({ put p (assoc u.heads h) with heads := assocSet u.heads h p }, p)

/-- A page leaves the overflow list that holds it. -/
def KvUnit.unlink (u : KvUnit) (e : KvEntry) : KvUnit :=
  let heads := u.heads.flatMap fun x =>
    if x.2 = e.page then e.next.toList.map fun n => (x.1, n) else [x]
  { u with
    heads := heads
    entries := u.entries.map fun x => if x.next = some e.page then { x with next := e.next } else x }

/-- An entry becomes invalid and its page free; a poisoned page is never allocated again (R338, R341). -/
def KvUnit.invalidate (u : KvUnit) (e : KvEntry) : KvUnit :=
  (u.unlink e).modEntry e.page fun x =>
    { x with valid := false, resident := false, transit := false, provisional := false,
             refs := 0, window := 0, next := none, count := 0, held := false }

/-- A freed entry leaves every touched list. -/
def KvUnit.untouch (u : KvUnit) (k : KvKey) : KvUnit :=
  { u with windows := u.windows.map fun w => { w with touched := w.touched.filter fun t => t.1 != k } }

/-! ## References (R338) -/

/-- The page of a key outside the package. -/
def KvUnit.far? (u : KvUnit) (k : KvKey) : Option FarPage := u.far.find? fun f => f.entry.key == k
/-- Changes the page of a key outside the package. -/
def KvUnit.modFar (u : KvUnit) (k : KvKey) (f : KvEntry → KvEntry) : KvUnit :=
  { u with far := updateIf u.far (fun x => x.entry.key == k) fun x => { x with entry := f x.entry } }

/-- A page outside the package is given up. -/
def KvUnit.dropFar (u : KvUnit) (k : KvKey) : KvUnit :=
  ({ u with far := u.far.filter fun f => f.entry.key != k }).modSeq k.seq fun s =>
    { s with far := s.far - 1 }

/-- The references of a key's page fall by one; at 0 the page is invalid and free (R338). -/
def KvUnit.unref (u : KvUnit) (pages : Nat) (k : KvKey) : KvUnit :=
  match u.lookup pages k, u.far? k with
  | some e, _ =>
    if e.refs ≤ 1 then (u.invalidate e).untouch k
    else u.modEntry e.page fun x => { x with refs := x.refs - 1 }
  | none, some f =>
    if f.entry.refs ≤ 1 then (u.dropFar k).untouch k else u.modFar k fun x => { x with refs := x.refs - 1 }
  | none, none => u

/-- A key's page in the table or outside the package is held by its sequence. -/
def KvUnit.holds (u : KvUnit) (pages : Nat) (k : KvKey) : Bool :=
  match u.lookup pages k, u.far? k with
  | some e, _ => e.held
  | none, some f => f.entry.held
  | none, none => false

/-- A sequence releases one of its own pages (R338). -/
def KvUnit.release (u : KvUnit) (pages : Nat) (k : KvKey) : KvUnit :=
  if !u.holds pages k then u
  else
    let inTable := (u.lookup pages k).isSome
    let u := { u with entries := updateIf u.entries (fun e => e.valid && e.key == k) fun e =>
      { e with held := false } }
    let u := u.modFar k fun e => { e with held := false }
    (if inTable then u.modSeq k.seq fun s => { s with pages := s.pages - 1 } else u).unref pages k

/-- The keys of the pages that a sequence holds of its own: committed ones, and provisional ones on
request. -/
def KvUnit.ownKeys (u : KvUnit) (q : Nat) (drafts : Bool) : List KvKey :=
  ((u.entries.filter fun e => e.valid && e.held && e.key.seq == q && (drafts || !e.provisional)).map
    (·.key)) ++ ((u.far.filter fun f => f.entry.held && f.entry.key.seq == q).map (·.entry.key))

/-- Releases some of a sequence's own pages. -/
def KvUnit.releaseAll (u : KvUnit) (pages : Nat) (ks : List KvKey) : KvUnit :=
  match ks with
  | [] => u
  | k :: rest => KvUnit.releaseAll (u.release pages k) pages rest

/-- Releases the references on some of a parent's pages. -/
def KvUnit.unrefAll (u : KvUnit) (pages : Nat) (ks : List KvKey) : KvUnit :=
  match ks with
  | [] => u
  | k :: rest => KvUnit.unrefAll (u.unref pages k) pages rest

/-- The window's edge passes a block as the length rises (R338). -/
def Seq.passes (s : Seq) (old new block : Nat) : Bool :=
  let last := block * pageTokens s.fp8 + pageTokens s.fp8 - 1
  decide (old ≤ last + s.window) && decide (last + s.window < new)

/-- The release of a sliding window as a length rises (R338). -/
def KvUnit.slide (u : KvUnit) (pages q old new : Nat) : KvUnit :=
  let s := u.seq q
  if s.window = 0 ∨ new ≤ old then u
  else
    let own := (u.ownKeys q false).filter fun k => s.passes old new k.block
    let gone := s.shared.filter fun k => s.passes old new k.block
    ((u.releaseAll pages own).unrefAll pages gone).modSeq q fun x =>
      { x with shared := x.shared.filter fun k => !gone.contains k }

/-! ## Sequences (R336, R343, R344) -/

/-- The sequence that a lookup of a block is made with (R336). -/
def KvUnit.resolve (u : KvUnit) (fuel q block : Nat) : Nat :=
  match fuel with
  | 0 => q
  | fuel + 1 =>
    let s := u.seq q
    match s.parent with
    | none => q
    | some p => if block < s.pfx then KvUnit.resolve u fuel p block else q

/-- The key that a lookup is made with. -/
def KvUnit.resolved (u : KvUnit) (k : KvKey) : KvKey := { k with seq := u.resolve 4 k.seq k.block }

/-- A sequence and its parents, nearest first. -/
def KvUnit.chain (u : KvUnit) (fuel : Nat) (q : Option Nat) : List Nat :=
  match fuel, q with
  | fuel + 1, some p => p :: KvUnit.chain u fuel (u.seq p).parent
  | _, _ => []

/-- The info word of a status (R343). -/
def statusWord (status : Nat) : Word := BitVec.ofNat 32 (status * 2 ^ 24)
/-- The info word of an entry with a count (R343). -/
def infoWord (e : KvEntry) (count : Nat) : Word := BitVec.ofNat 32 (e.flags * 256 + count % 256)

/-- What a step answers: result words, or a trap at the requesting word. -/
inductive KvReply where
  | words (ws : List Word)
  | trap (cause : Nat) (addr : DWord)
  deriving DecidableEq, Repr

/-- A pair answer that names no page (R343). -/
def noPage (status : Nat) : KvReply := .words [kvNone, statusWord status]
/-- A single-word answer. -/
def status1 (status : Nat) : KvReply := .words [statusWord status]

/-- Statuses 5, 2 and 3 in this order (R344). -/
def KvUnit.status (u : KvUnit) (q tenant : Nat) : Nat :=
  let s := u.seq q
  if !s.live then 5 else if s.poisoned then 2 else if s.tenant ≠ tenant then 3 else 0

/-- The open window of a sequence (R397, R398). -/
def KvUnit.window? (u : KvUnit) (q : Nat) : Option Window := u.windows.find? fun w => w.seq == q
/-- The open window of a sequence by a member. -/
def KvUnit.mine? (u : KvUnit) (q member : Nat) : Option Window :=
  (u.window? q).bind fun w => if w.member = member then some w else none

/-- The provisional count of a committed entry (R397). -/
def Window.touch (w : Window) (k : KvKey) : Nat :=
  ((w.touched.find? fun t => t.1 == k).map (·.2)).getD 0

/-- R344, R399: KVLOOK. -/
def KvUnit.look (u : KvUnit) (pages member tenant : Nat) (k : KvKey) : KvReply :=
  let st := u.status k.seq tenant
  if st ≠ 0 then noPage st
  else
    let key := u.resolved k
    let w := if key = k then u.mine? k.seq member else none
    match u.lookup pages key with
    | none => noPage 1
    | some e =>
      if e.provisional && w.isNone then noPage 1
      else .words [BitVec.ofNat 32 e.page,
        infoWord e (Nat.max e.count ((w.map fun w => w.touch key).getD 0))]

/-- A new entry of a key. -/
def newEntry (k : KvKey) (tenant : Nat) (fp8 draft : Bool) (count window : Nat) : KvEntry where
  page := 0
  key := k
  tenant := tenant
  valid := true
  resident := true
  transit := false
  poisoned := false
  fp8 := fp8
  provisional := draft
  count := count
  refs := 1
  window := window
  next := none
  wcount := 0
  held := true

/-- The answer about the entry of a page. -/
def KvUnit.answer (u : KvUnit) (page : Nat) (count : Nat) : KvReply :=
  match u.entry? page with
  | none => noPage 1
  | some e => .words [BitVec.ofNat 32 page, infoWord e (Nat.max e.count count)]

/-- The committed step of KVALLOC on a descriptor (R344). -/
def KvUnit.commit (u : KvUnit) (pages : Nat) (s : Seq) (k : KvKey) (n : Nat) : KvUnit × KvReply :=
  let done : Option (KvUnit × Nat) := match u.lookup pages k with
    | some e => some (u.modEntry e.page fun x => { x with count := Nat.max x.count n }, e.page)
    | none => u.place pages (newEntry k s.tenant s.fp8 false n 0)
  match done with
  | none => (u, noPage 4)
  | some (v, page) =>
    let new := k.block * pageTokens s.fp8 + n
    let added := if (u.lookup pages k).isNone then 1 else 0
    let v := v.modSeq k.seq fun _ =>
      { s with length := Nat.max s.length new, pages := s.pages + added }
    let r := v.answer page 0
    (v.slide pages k.seq s.length new, r)

/-- Changes the window of a sequence. -/
def KvUnit.modWindow (u : KvUnit) (q : Nat) (f : Window → Window) : KvUnit :=
  { u with windows := updateIf u.windows (fun w => w.seq == q) f }

/-- R400: KVALLOC by the opener of a window. -/
def KvUnit.draft (u : KvUnit) (pages : Nat) (s : Seq) (w : Window) (k : KvKey) (n : Nat) :
    KvUnit × KvReply :=
  let top := k.block * pageTokens s.fp8 + n
  if w.base + w.nd < top then (u, .trap 0x091 (BitVec.ofNat 64 top))
  else match u.lookup pages k with
    | none =>
      match u.place pages (newEntry k s.tenant s.fp8 true n w.w) with
      | none => (u, noPage 4)
      | some (v, page) => (v.modSeq k.seq fun x => { x with pages := x.pages + 1 }, v.answer page 0)
    | some e =>
      if e.provisional then
        let v := u.modEntry e.page fun x => { x with count := Nat.max x.count n }
        (v, v.answer e.page 0)
      else if w.touched.any fun t => t.1 == k then
        let c := Nat.max (w.touch k) n
        (u.modWindow k.seq fun x => { x with touched := updateIf x.touched (fun t => t.1 == k) fun t =>
          (t.1, c) }, u.answer e.page c)
      else if 8192 ≤ w.touched.length then (u, noPage 4)
      else (u.modWindow k.seq fun x => { x with touched := x.touched ++ [(k, n)] }, u.answer e.page n)

/-- The status that KVALLOC's checks give before it looks its key up, 0 when they pass (R344, R399). -/
def KvUnit.allocStatus (u : KvUnit) (member tenant : Nat) (k : KvKey) (fp8 : Bool) : Nat :=
  let s := u.seq k.seq
  if !s.live then 0
  else if s.poisoned then 2
  else if s.tenant ≠ tenant then 3
  else if (u.window? k.seq).any fun w => w.member != member then 9
  else if s.fp8 ≠ fp8 then 7
  else if k.block < s.pfx then 6
  else 0

/-- R344, R399, R400: KVALLOC. -/
def KvUnit.alloc (u : KvUnit) (pages member tenant : Nat) (k : KvKey) (n : Nat) (fp8 : Bool)
    (window : Nat) : KvUnit × KvReply :=
  let s := u.seq k.seq
  let st := u.allocStatus member tenant k fp8
  if !s.live then
    u.commit pages ⟨k.seq, tenant, true, false, fp8, 0, window, none, 0, 0, s.dfwin, 0, []⟩ k n
  else if st ≠ 0 then (u, noPage st)
  else match u.window? k.seq with
    | some w => u.draft pages s w k n
    | none => u.commit pages s k n

/-- Invalidates the provisional entries of some pages, each as it stands by then, the sequence's pages falling for
each (R405, R407). -/
def KvUnit.dropDrafts (u : KvUnit) (es : List KvEntry) : KvUnit :=
  match es with
  | [] => u
  | e :: rest =>
    KvUnit.dropDrafts ((u.invalidate ((u.entry? e.page).getD e)).modSeq e.key.seq fun s =>
      { s with pages := s.pages - 1 }) rest

/-- The provisional entries of a window. -/
def KvUnit.drafts (u : KvUnit) (w : Window) : List KvEntry :=
  u.entries.filter fun e => e.valid && e.provisional && e.key.seq == w.seq && e.window == w.w

/-- R407: a window is dropped: its provisional entries, its touched list and its record. -/
def KvUnit.dropWindow (u : KvUnit) (w : Window) : KvUnit :=
  let u := u.dropDrafts (u.drafts w)
  { u with windows := u.windows.filter fun x => x.seq != w.seq }

/-- The status that KVFREE's checks of a block give before it looks the block up (R344). -/
def KvUnit.freeStatus (u : KvUnit) (tenant : Nat) (k : KvKey) : Nat :=
  let s := u.seq k.seq
  if !s.live then 5
  else if s.tenant ≠ tenant then 3
  else if s.poisoned then 2
  else if k.block < s.pfx then 6
  else 0

/-- R344, R399: KVFREE of one block; an entry that its sequence no longer holds, since its window's edge has
passed it, still loses a reference (DEDUCED 60). -/
def KvUnit.freeOne (u : KvUnit) (pages member tenant : Nat) (k : KvKey) : KvUnit × KvReply :=
  let st := u.freeStatus tenant k
  if st ≠ 0 then (u, status1 st)
  else match u.lookup pages k with
    | none => (u, status1 1)
    | some e =>
      if e.provisional && (u.mine? k.seq member).isNone then (u, status1 1)
      else if e.held then (u.release pages k, status1 0)
      else (u.unref pages k, status1 0)

/-- R344, R399: KVFREE of a whole sequence. -/
def KvUnit.freeAll (u : KvUnit) (pages tenant q : Nat) : KvUnit × KvReply :=
  let s := u.seq q
  if !s.live then (u, status1 5)
  else if s.tenant ≠ tenant then (u, status1 3)
  else
    let u := match u.window? q with
      | none => u
      | some w => u.dropWindow w
    let u := (u.releaseAll pages (u.ownKeys q true)).unrefAll pages s.shared
    (u.modSeq q fun x => { x with live := false, shared := [] }, status1 0)

/-- References of a key's page rise by one. -/
def KvUnit.addRefs (u : KvUnit) (ks : List KvKey) : KvUnit :=
  { u with
    entries := updateIf u.entries (fun e => e.valid && ks.contains e.key) fun e =>
      { e with refs := e.refs + 1 }
    far := updateIf u.far (fun f => ks.contains f.entry.key) fun f =>
      { f with entry := { f.entry with refs := f.entry.refs + 1 } } }

/-- The committed pages that blocks below a prefix resolve to from a parent, by key (R344). -/
def KvUnit.sharedKeys (u : KvUnit) (parent blocks : Nat) : List KvKey :=
  ((u.entries.filter fun e => e.valid && !e.provisional && decide (e.key.block < blocks) &&
    u.resolve 4 parent e.key.block == e.key.seq).map (·.key)) ++
  ((u.far.filter fun f => decide (f.entry.key.block < blocks) &&
    u.resolve 4 parent f.entry.key.block == f.entry.key.seq).map (·.entry.key))

/-- R344: KVSHARE. -/
def KvUnit.share (u : KvUnit) (tenant child parent blocks : Nat) : KvUnit × KvReply :=
  let c := u.seq child
  let p := u.seq parent
  let chain := u.chain 5 (some parent)
  if !c.live || !p.live then (u, status1 5)
  else if c.poisoned || p.poisoned then (u, status1 2)
  else if c.tenant ≠ tenant ∨ p.tenant ≠ tenant then (u, status1 3)
  else if c.parent.isSome || ((u.ownKeys child true).any fun k => decide (k.block < blocks)) then
    (u, status1 6)
  else if chain.contains child || decide (4 < chain.length) then (u, status1 8)
  else
    let keys := u.sharedKeys parent blocks
    let length := Nat.max c.length (blocks * pageTokens c.fp8)
    ((u.addRefs keys).modSeq child fun x =>
      { x with parent := some parent, pfx := blocks, length := length, shared := keys }, status1 0)

/-- R341: an entry is poisoned, with every sequence whose lookups reach it. -/
def KvUnit.poison (u : KvUnit) (e : KvEntry) : KvUnit :=
  let u := u.modEntry e.page fun x => { x with poisoned := true, transit := false }
  { u with seqs := updateIf u.seqs (fun s => s.live &&
      (s.num == e.key.seq || u.resolve 4 s.num e.key.block == e.key.seq)) fun s =>
        { s with poisoned := true } }

/-! ## Requests (R342, R345) -/

/-- A member's tenant (R332). -/
def State.tenantOf (s : State) (m : Member) : Nat := ((s.acct? m.acct).map (·.cfg.tenant)).getD 0
/-- The KV pool of a partition (R330). -/
def State.pool? (s : State) (part : Nat) : Option KvCfg := (s.part? part).bind (·.cfg.kv)

/-- A request leaves for the KV unit, once what a fence holds path T accesses for is complete; the thread waits for
its reply (R345, R353, R368). -/
def State.sendKv (s : State) (t : Thread) (req : KvReq) (dst : List Slot) : State :=
  if !s.allDone (t.fenced .t) then s
  else
    let (s, id) := (s.tick t.uid (agentA t.uid)).launchFlight t (agentA t.uid) (.kv req) dst
    s.setWait t.uid (.reply id)

/-- Layer and head of a key block, with its sequence and block (R342). -/
def kvKey (seq lh block : Word) : KvKey :=
  ⟨seq.toNat, (lh.extractLsb' 16 16).toNat, (lh.extractLsb' 0 16).toNat, block.toNat⟩

/-- The key that the names from a hold. -/
def State.keyAt (s : State) (t : Thread) (a : Name) : KvKey :=
  kvKey (s.name t a) (s.name t (nameAt a 1)) (s.name t (nameAt a 2))

/-- A KV instruction: its checks in order, then its request (R330, R342). -/
def kvWord (i : Instr) (s : State) (bad : KvCfg → State → Thread → Option Word)
    (req : State → Thread → KvReq) (dst : State → Thread → List Slot) : Host.Outcome State Fault Refusal :=
  issueWord i s fun s t =>
    match (s.member? t.member).bind fun m => s.pool? m.part with
    | none => s.trap t.uid 0x0E9 0
    | some c =>
      match bad c s t with
      | some w => s.trap t.uid 0x0E8 (w.setWidth 64)
      | none => s.sendKv t (req s t) (dst s t)

/-- A sequence number at or above Q (R342). -/
def seqBad (c : KvCfg) (q : Word) : Option Word := if c.seqs ≤ q.toNat then some q else none

/-- Name a + 3 of KVALLOC is bad: a reserved bit, or a token count outside 1 to T (R342). -/
def countBad (w : Word) : Option Word :=
  let n := (w.extractLsb' 0 8).toNat
  if w.extractLsb' 9 23 != 0 || n == 0 || decide (pageTokens (w.getLsbD 8) < n) then some w else none

/-- R344: KVLOOK. -/
def execKvlook (d a : Name) (s : State) : Host.Outcome State Fault Refusal :=
  kvWord (.kvlook d a) s (fun c s t => seqBad c (s.name t a)) (fun s t => .look (s.keyAt t a))
    fun s t => s.pairSlots t d
/-- R344: KVALLOC. -/
def execKvalloc (d a : Name) (s : State) : Host.Outcome State Fault Refusal :=
  kvWord (.kvalloc d a) s
    (fun c s t => (seqBad c (s.name t a)).or (countBad (s.name t (nameAt a 3))))
    (fun s t =>
      let w := s.name t (nameAt a 3)
      .alloc (s.keyAt t a) (w.extractLsb' 0 8).toNat (w.getLsbD 8) (s.name t (nameAt a 4)).toNat)
    fun s t => s.pairSlots t d
/-- R344: KVFREE. -/
def execKvfree (d a : Name) (s : State) : Host.Outcome State Fault Refusal :=
  kvWord (.kvfree d a) s (fun c s t => seqBad c (s.name t a))
    (fun s t =>
      if s.name t (nameAt a 2) = kvNone then .freeAll (s.name t a).toNat else .free (s.keyAt t a))
    fun s t => [s.slotOf t d]
/-- R344: KVSHARE. -/
def execKvshare (d a b : Name) (s : State) : Host.Outcome State Fault Refusal :=
  kvWord (.kvshare d a b) s (fun c s t => (seqBad c (s.name t a)).or (seqBad c (s.name t b)))
    (fun s t => .share (s.name t a).toNat (s.name t b).toNat (s.name t (nameAt b 1)).toNat)
    fun s t => [s.slotOf t d]

/-! ## Waiting for pages in transit (R340) -/

/-- A lookup of a key meets an entry in transit, or a page outside the package. -/
def KvUnit.keyWaits (u : KvUnit) (pages : Nat) (k : KvKey) : Bool :=
  match u.lookup pages k with
  | some e => e.transit
  | none => (u.far? k).isSome

/-- A page that a step over a whole sequence reaches is in transit. -/
def KvUnit.seqWaits (u : KvUnit) (q : Nat) : Bool :=
  u.entries.any fun e => e.valid && e.transit &&
    (e.key.seq == q || (u.seq q).shared.contains e.key)

/-- The keys that a request looks up, once the checks before its lookups have passed (R344). -/
def KvUnit.wants (u : KvUnit) (member tenant : Nat) (r : KvReq) : List KvKey :=
  match r with
  | .look k => if u.status k.seq tenant = 0 then [u.resolved k] else []
  | .alloc k _ fp8 _ => if u.allocStatus member tenant k fp8 = 0 then [k] else []
  | .free k => if u.freeStatus tenant k = 0 then [k] else []
  | .share c p n => if (u.share tenant c p n).2 = status1 0 then u.sharedKeys p n else []
  | _ => []

/-- A request waits for a page in transit or outside the package (R340). -/
def KvUnit.waits (u : KvUnit) (pages member tenant : Nat) (r : KvReq) : Bool :=
  ((u.wants member tenant r).any fun k => u.keyWaits pages k) ||
  match r with
  | .alloc k _ fp8 _ => u.allocStatus member tenant k fp8 == 0 && (u.window? k.seq).isNone &&
      (u.seq k.seq).window != 0 && u.seqWaits k.seq
  | .freeAll q => u.seqWaits q
  | .dfkeep q _ _ => u.seqWaits q
  | _ => false

/-! ## Pages outside the package (R339, R340) -/

/-- Changes the KV unit of a partition. -/
def State.modKv (s : State) (part : Nat) (f : KvUnit → KvUnit) : State :=
  s.modPart part fun p => { p with kv := f p.kv }

/-- Where a byte of a partition's memory stands: in the frame of its page, which may be mapped or removed (R212). -/
def State.frameByte (s : State) (part va : Nat) : Option Nat :=
  (s.frameOf part (va / frameBytes)).map fun f => f * frameBytes + va % frameBytes

/-- Bytes of a partition's memory at the frame of their page, zeros where it has none. -/
def State.pageBytes (s : State) (part va n : Nat) : List Byte :=
  match s.frameByte part va with
  | none => List.replicate n 0
  | some pa => s.mem.bytes pa n

/-- Nymesque writes bytes of a partition's memory within one page. -/
def State.putPage (s : State) (part va : Nat) (bs : List Byte) : State :=
  let s := s.touch part va
  match s.walk (s.rootOf part) va with
  | none => s
  | some w => (s.forget ⟨0, w.pa⟩ bs.length).putAt ⟨0, w.pa⟩ bs

/-- The address of page p and of its sidecar (R331). -/
def pageAt (c : KvCfg) (p : Nat) : Nat := c.pageBase.toNat + 32768 * p
/-- The address of a page's sidecar. -/
def sideAt (c : KvCfg) (p : Nat) : Nat := c.sidecarBase.toNat + 4096 * p

/-- The key of a tenant of a partition (R43, R332). -/
def Partition.tenantKey (p : Partition) (tenant : Nat) : List Byte :=
  ((p.cfg.tenantKeys.find? fun k => k.1 == tenant).map (·.2)).getD []

/-- The IV of a sealed page (R339). -/
def sealIv (part : Nat) (e : KvEntry) : List Byte := leBytes 4 e.page ++ leBytes 4 part ++ leBytes 4 e.wcount

/-- A page may be evicted (R339). -/
def KvEntry.evictable (e : KvEntry) : Bool :=
  e.resident && e.refs != 0 && !e.provisional && !e.poisoned && decide (e.wcount < 0xFFFFFFFF)

/-- PAGE_EVICT (R339): the first time it sets the page in transit; the second time it seals the page,
writes it to the far memory pool and invalidates the entry. -/
def execPageEvict (s : State) : Host.Outcome State Fault Refusal :=
  match s.input with
  | .page part page =>
    match s.part? part, s.pool? part with
    | some p, some c =>
      match p.kv.entry? page with
      | none => .next s
      | some e =>
        if !e.transit then
          if e.evictable then .next (s.modKv part fun u => u.modEntry page fun x =>
            { x with transit := true, wcount := x.wcount + 1 })
          else .next s
        else if !e.resident then .next s
        else
          let plain := s.pageBytes part (pageAt c page) 32768 ++ s.pageBytes part (sideAt c page) 4096
          let (image, tag) := Config.gcmSeal (p.tenantKey e.tenant) (sealIv part e) e.head16 plain
          let gone : FarPage := ⟨e, image, tag, plain⟩
          .next (s.modKv part fun u =>
            ({ u.invalidate e with far := u.far ++ [gone] }).modSeq e.key.seq fun q =>
              { q with far := q.far + 1, pages := q.pages - if e.held then 1 else 0 })
    | _, _ => .next s
  | _ => .next s

/-- A request at the unit asks for a key (R340). -/
def State.kvAsked (s : State) (part : Nat) (u : KvUnit) (k : KvKey) : Bool :=
  s.flights.any fun f => !f.applied && match f.op, s.member? f.member with
    | .kv r, some m => m.part == part && (u.wants m.id (s.tenantOf m) r).contains k
    | _, _ => false

/-- The lines of some bytes of a partition's page become poisoned (R214, R341). -/
def State.poisonLines (s : State) (part va n : Nat) : State :=
  match s.frameByte part va with
  | none => s
  | some pa => { s with poison := s.poison ++ (List.range (n / 4096)).map fun i => pa / 4096 + i }

/-- The page of an address has a frame: the one it has, mapped or removed, or a new one (R213). -/
def State.withFrame (s : State) (part va : Nat) : State :=
  if (s.frameByte part va).isNone then s.touch part va else s

/-- The poisoning of an entry (R341). -/
def State.poisonEntry (s : State) (part : Nat) (c : KvCfg) (e : KvEntry) : State :=
  ((s.withFrame part (pageAt c e.page)).poisonLines part (pageAt c e.page) 32768).modKv part fun u => u.poison e

/-- A byte of device memory lies in some bytes of a partition's page. -/
def State.holdsByte (s : State) (part va n off : Nat) : Bool :=
  (s.frameByte part va).any fun pa => decide (pa ≤ off) && decide (off < pa + n)

/-- The resident entries whose page or sidecar holds a byte of device memory, with their partitions (R331). -/
def State.entriesAt (s : State) (l : Loc) : List (Nat × KvCfg × KvEntry) :=
  s.parts.flatMap fun p => match p.cfg.kv with
    | none => []
    | some c => (p.kv.entries.filter fun e => e.valid && e.resident && l.space == 0 &&
        (s.holdsByte p.id (pageAt c e.page) 32768 l.off || s.holdsByte p.id (sideAt c e.page) 4096 l.off)).map
          fun e => (p.id, c, e)

/-- A byte comes to hold an uncorrectable error; in a KV page or its sidecar it poisons the entry (R214, R341). -/
def State.errorAt (s : State) (l : Loc) : State :=
  (s.entriesAt l).foldl (fun s x => s.poisonEntry x.1 x.2.1 x.2.2) (s.breakByte l)

/-- An entry whose page or sidecar holds a byte with an uncorrectable error, as when it takes a frame that had one, is
poisoned (R341). -/
def State.poisonBroken (s : State) : State :=
  (((s.broken.flatMap s.entriesAt).filter fun x => !x.2.2.poisoned).eraseDups).foldl
    (fun s x => s.poisonEntry x.1 x.2.1 x.2.2) s

/-- PAGE_PROMOTE (R340): the first time it allocates an entry in transit for the key that a request asks
for; the second time it reads the image back: a tag that matches restores the page, another poisons the
entry, and so does an error that the frame holds (R341). -/
def execPagePromote (s : State) : Host.Outcome State Fault Refusal :=
  match s.input with
  | .key part k =>
    match s.part? part, s.pool? part with
    | some p, some c =>
      match p.kv.far? k, p.kv.lookup c.pages k with
      | none, _ => .next s
      | some f, none =>
        if !s.kvAsked part p.kv k then .next s
        else match p.kv.place c.pages { f.entry with resident := false, transit := true } with
          | none => .next s
          | some (u, _) => .next (s.modKv part fun _ => u)
      | some f, some e =>
        if e.resident || !e.transit then .next s
        else
          let s' := { s with fresh := s.fresh + 1 }.modKv part fun u => ({ u with far := u.far.filter fun x => x.entry.key != k }).modSeq
            k.seq fun q => { q with far := q.far - 1, pages := q.pages + if e.held then 1 else 0 }
          if Config.farIntact s.fresh then
            let s' := (s'.putPage part (pageAt c e.page) (slice f.plain 0 32768)).putPage part
              (sideAt c e.page) (slice f.plain 32768 4096)
            .next (s'.modKv part fun u => u.modEntry e.page fun x =>
              { x with resident := true, transit := false }).poisonBroken
          else .next (s'.poisonEntry part c e)
    | _, _ => .next s
  | _ => .next s

/-- ENTRY_POISON (R341): an uncorrectable error in the page named by the input or its sidecar. -/
def execEntryPoison (s : State) : Host.Outcome State Fault Refusal :=
  match s.input with
  | .page part page =>
    match s.part? part, s.pool? part with
    | some p, some c =>
      match p.kv.entry? page with
      | none => .next s
      | some e => .next (s.poisonEntry part c e)
    | _, _ => .next s
  | _ => .next s

end Sys2Proof.Machine
end

