-- ==== Sys2Proof/Machine/Sieve.lean ====
section
/-! DEFINITION. The sieve engine of the S-cores (spec/15_kv_sieve.md R347 to R351). -/
namespace Sys2Proof.Machine

open Sys2Proof

/-! ## Issue (R347 to R350) -/

/-- The core's sieve queue has room (R347). -/
def State.sqRoom (s : State) (t : Thread) : Bool := decide ((s.core t.core).sq.length < 8)

/-- A command enters the sieve queue, after what its threads' fences name (R347, R368). -/
def State.queueSieve (s : State) (t : Thread) (ts : List Thread) (k : SKind) : State :=
  let i := s.nextId
  let clk := s.engineClock ts .s i
  let c : SCmd := ⟨i, ts.map (·.uid), s.crewFor t, t.member, t.pc, k, fencedAll ts .s, clk⟩
  let s := { s with nextId := s.nextId + 1 }
  let s := s.modCore t.core fun x => { x with sq := x.sq ++ [c] }
  (s.noteIssued ts .s clk).finishAll ts

/-- The checks of a sieve word: a partition without a KV pool, or a block that is not valid (R330, R349, R350). -/
def sieveCause (bad : State → Member → Thread → Option DWord) (s : State) (m : Member) (t : Thread) :
    Option (Nat × DWord) :=
  if (s.pool? m.part).isNone then some (0x0E9, 0) else (bad s m t).map fun x => (0x0EA, x)

/-- A queued sieve word: a joint issue with its checks, operands from the lowest lane (R330, R347). -/
def sieveWord (i : Instr) (s : State) (bad : State → Member → Thread → Option DWord)
    (kind : State → Thread → SKind) : Host.Outcome State Fault Refusal :=
  issueJoint i s (fun s t => s.sqRoom t && s.lanesTrap t i (sieveCause bad)) fun s t ts =>
    let l := lowestLane t ts
    match s.member? l.member with
    | none => s
    | some m =>
      match sieveCause bad s m l with
      | some (c, x) => s.trapEach ts c x
      | none => s.queueSieve l ts (kind s l)

/-- R349: SKSET. -/
def execSkset (a : BitVec 2) (b : Name) (s : State) : Host.Outcome State Fault Refusal :=
  sieveWord (.skset a b) s
    (fun s m t =>
      let o := (s.name t b).toNat
      if o % 32 ≠ 0 ∨ m.scratchBytes < o + 32 then some ((s.name t b).setWidth 64) else none)
    fun s t => .skset a.toNat (s.name t b).toNat

/-- The page list or the bitmap of a sieve block is misaligned or lies beyond the scratchpad (R350). -/
def listBad (m : Member) (list n : Nat) : Bool := list % 8 != 0 || decide (m.scratchBytes < list + 8 * n)
/-- See `listBad`. -/
def bitmapBad (m : Member) (bitmap n : Nat) : Bool := decide (m.scratchBytes < bitmap + n)
/-- A number of entries outside 1 to 4,096 (R348). -/
def entriesBad (n : Nat) : Bool := n == 0 || decide (4096 < n)

/-- R350: SIEVE. -/
def execSieve (a : BitVec 2) (b : Name) (s : State) : Host.Outcome State Fault Refusal :=
  sieveWord (.sieve a b) s
    (fun s m t =>
      let n := (s.name t (nameAt b 1)).toNat
      if entriesBad n || listBad m (s.name t b).toNat n || bitmapBad m (s.name t (nameAt b 3)).toNat n ||
          !(barrierWord (s.name t (nameAt b 6))).1 then some ((s.name t b).setWidth 64) else none)
    fun s t =>
      let sl := s.name t (nameAt b 4)
      .sieve a.toNat (s.name t b).toNat (s.name t (nameAt b 1)).toNat (s.name t (nameAt b 2))
        (s.name t (nameAt b 3)).toNat (sl.extractLsb' 16 16).toNat (sl.extractLsb' 0 16).toNat
        (s.name t (nameAt b 5)).toNat (s.name t (nameAt b 6))

/-! ## Scores (R350, R242) -/

/-- The 64 signed INT4 elements of 32 bytes (R242, R331). -/
def int4s (bs : List Byte) : List Int :=
  bs.flatMap fun b => [(b.extractLsb' 0 4).toInt, (b.extractLsb' 4 4).toInt]

/-- The exact score of a sketch against a query. -/
def score (q k : List Int) : Int := (List.zipWith (· * ·) q k).foldl (· + ·) 0

/-- What a SIEVE compares with (R350). -/
structure SieveArgs where
  threshold : Int
  sink : Nat
  loc : Nat
  len : Nat
  deriving DecidableEq, Repr

/-- A token keeps its sub-block (R350). -/
def SieveArgs.keeps (x : SieveArgs) (pos : Nat) (sc : Int) : Bool :=
  decide (x.threshold ≤ sc) || decide (pos < x.sink) || (decide (pos < x.len) && decide (x.len ≤ pos + x.loc))

/-- The bitmap byte of a page: bit j keeps its sub-block of 16 tokens (R350). -/
def sieveByte (x : SieveArgs) (q : List Int) (tokens block count : Nat) (side : List Byte) : Byte :=
  let bit (j : Nat) : Bool := (List.range 16).any fun i =>
    let t := 16 * j + i
    decide (t < count) && x.keeps (block * tokens + t) (score q (int4s (slice side (32 * t) 32)))
  BitVec.ofNat 8 (((List.range (tokens / 16)).map fun j => if bit j then 2 ^ j else 0).foldl (· + ·) 0)

/-! ## Execution (R349, R350) -/

/-- The core and command that a number names, at the head of its queue with what it is ordered after
complete (R347). -/
def State.headSieve (s : State) (i : Nat) : Option (Core × SCmd × Member) :=
  match s.cores.find? fun c => (c.sq.head?.map (·.id)) == some i with
  | none => none
  | some c =>
    match c.sq with
    | [] => none
    | q :: _ =>
      if s.allDone q.after && s.settled (Clock.join c.sclk q.clk) then
        (s.member? q.member).map fun m => (c, q, m)
      else none

/-- Who makes a sieve command's accesses. -/
def sieveActor (c : Core) (q : SCmd) : Actor := ⟨agentC q.id, Clock.join c.sclk q.clk, q.member, c.id, .s⟩

/-- A local extent as an engine's pieces. -/
def localPieces (write : Bool) (off n : Nat) : List Piece :=
  piecesOf write (localBase + BitVec.ofNat 64 off) n

/-- What a command has come to: entries done, the pages it found not valid, sketches scored. -/
structure SieveAcc where
  rows : Nat
  bad : List Nat
  scored : Nat
  deriving DecidableEq, Repr

/-- How a command comes out. -/
inductive SieveRun where
  | wait (c : Check)
  | done (s : State) (a : SieveAcc) (fail : Option (Nat × DWord))

/-- The valid entry of a page for a member and block (R350). -/
def State.sieveEntry (s : State) (m : Member) (page block : Nat) : Option KvEntry :=
  match (s.part? m.part).bind fun p => p.kv.entry? page with
  | none => none
  | some e => if e.tenant != s.tenantOf m || e.poisoned || e.key.block != block then none else some e

/-- The bitmap byte of an entry is written. -/
def State.putBit (s : State) (a : Actor) (m : Member) (off : Nat) (b : Byte) : RowCheck × State :=
  let ps := localPieces true off 1
  (s.checkPieces m.id ps, s.writePieces a ps [b])

/-- Runs the list entries of a SIEVE from entry `acc.rows` on, in ascending order (R350); an entry in
transit makes it wait. The bitmap byte of a page that is not valid is written before its cause is recorded. -/
def State.runSieve (s : State) (a : Actor) (m : Member) (c : KvCfg) (x : SieveArgs) (q : List Int)
    (list bitmap n : Nat) (acc : SieveAcc) : SieveRun :=
  match n with
  | 0 => .done s acc none
  | n + 1 =>
    let ps := localPieces false (list + 8 * acc.rows) 8
    match s.checkPieces m.id ps with
    | .wait w => .wait w
    | .fail cause addr => .done s acc (some (cause, addr))
    | .ok =>
      let (s, bs) := s.readPieces a ps
      let page := sliceNat bs 0 4
      let block := sliceNat bs 4 4
      let next (s : State) (b : Byte) (scored : Nat) (found : List Nat) : SieveRun :=
        let acc := { acc with scored := acc.scored + scored }
        match s.putBit a m (bitmap + acc.rows) b with
        | (.wait w, _) => .wait w
        | (.fail cause addr, _) => .done s acc (some (cause, addr))
        | (.ok, s) => State.runSieve s a m c x q list bitmap n
            { acc with rows := acc.rows + 1, bad := acc.bad ++ found }
      match s.sieveEntry m page block with
      | none => next s 0 0 [page]
      | some e =>
        let side := piecesOf false (BitVec.ofNat 64 (sideAt c page)) (32 * e.count)
        if e.transit then .wait .hold
        else match s.checkPieces m.id side with
          | .wait w => .wait w
          | .fail cause addr => .done s acc (some (cause, addr))
          | .ok =>
            let (s, bs) := s.readPieces a side
            next s (sieveByte x q (pageTokens e.fp8) block e.count bs) e.count []

/-- The query of a slot (R347). -/
def Member.queryOf (m : Member) (slot : Nat) : List Int :=
  int4s ((List.range 32).map fun i => Map.get m.query (32 * slot + i))

/-- Runs a command (R349, R350). -/
def State.runCmd (s : State) (c : Core) (q : SCmd) (m : Member) (k : KvCfg) : SieveRun :=
  let a := sieveActor c q
  match q.kind with
  | .skset slot off =>
    let ps := localPieces false off 32
    match s.checkPieces m.id ps with
    | .wait w => .wait w
    | .fail cause addr => .done s ⟨0, [], 0⟩ (some (cause, addr))
    | .ok =>
      let (s, bs) := s.readPieces a ps
      .done (s.modMember m.id fun x => { x with query := Map.putBytes x.query (32 * slot) bs })
        ⟨0, [], 0⟩ none
  | .sieve slot list n threshold bitmap sink loc len _ =>
    s.runSieve a m k ⟨threshold.toInt, sink, loc, len⟩ (m.queryOf slot) list bitmap n ⟨0, [], 0⟩

/-- A command leaves the queue; its scores are charged (R347, R355, R476). -/
def State.endSieve (s : State) (c : Core) (q : SCmd) (acc : SieveAcc) : State :=
  let clk := Clock.join c.sclk q.clk
  ((s.modCore c.id fun x => { x with sq := x.sq.drop 1, sclk := clk }).chargeMember
    q.member { Usage.zero with sieve := acc.scored }).endsCommand q.id q.crew q.member q.uids .s clk

/-- The entries and barrier word of a command. -/
def SKind.arrival (k : SKind) : Nat × Word :=
  match k with
  | .skset _ _ => (0, 0)
  | .sieve _ _ n _ _ _ _ _ bar => (n, bar)

/-- The word b + 3 of a command (R316) (DEDUCED 49). -/
def SKind.shape (k : SKind) : Word :=
  match k with
  | .skset _ _ => 0
  | .sieve _ _ _ _ bitmap _ _ _ _ => BitVec.ofNat 32 bitmap

/-- The causes 0x0EB of a command, one for each page that is not valid for the member (R350). -/
def State.reportBad (s : State) (q : SCmd) (pages : List Nat) : State :=
  match pages with
  | [] => s
  | p :: rest =>
    State.reportBad (s.deliver q.member q.crew (q.uids.headD 0) ⟨0x0EB, BitVec.ofNat 64 p, none, false⟩)
      q rest

/-- Executes the command named by the input when it heads its queue and is of the event's kind. -/
def executeSieve (is : SKind → Bool) (s : State) : Host.Outcome State Fault Refusal :=
  match s.input with
  | .id i =>
    match s.headSieve i with
    | none => .next s
    | some (c, q, m) =>
      match s.pool? m.part with
      | none => .next s
      | some k =>
        if !is q.kind then .next s
        else match s.runCmd c q m k with
          | .wait w => .next (s.waitOn m.part (sieveActor c q) w)
          | .done _ _ (some _) => .next s
          | .done s acc none =>
            let (n, bar) := q.kind.arrival
            .next (((s.endSieve c q acc).cmdArrival q.id q.crew m.id bar n acc.rows none
              (sieveActor c q).clk).reportBad q acc.bad)
  | _ => .next s

/-- SKSET_EXECUTE (R349). -/
def execSksetExecute (s : State) : Host.Outcome State Fault Refusal :=
  executeSieve (fun k => match k with | .skset _ _ => true | _ => false) s
/-- SIEVE_EXECUTE (R350). -/
def execSieveExecute (s : State) : Host.Outcome State Fault Refusal :=
  executeSieve (fun k => match k with | .skset _ _ => false | _ => true) s

/-- SIEVE_COMMAND_FAILURE (R349, R350): the head command named by the input meets a memory failure and
ends: it arrives with its whole count and the error, and its cause is delivered with its progress
record (R306, R316). -/
def execSieveCommandFailure (s : State) : Host.Outcome State Fault Refusal :=
  match s.input with
  | .id i =>
    match s.headSieve i with
    | none => .next s
    | some (c, q, m) =>
      match s.pool? m.part with
      | none => .next s
      | some k =>
        match s.runCmd c q m k with
        | .done s acc (some (cause, addr)) =>
          let (n, bar) := q.kind.arrival
          let s := (s.endSieve c q acc).cmdArrival q.id q.crew m.id bar n acc.rows (some cause)
            (sieveActor c q).clk
          let r : Progress := ⟨0x0EC, cause, q.pc, addr, acc.rows, acc.rows, q.kind.shape, 0⟩
          .next ((s.reportBad q acc.bad).deliver q.member q.crew (q.uids.headD 0)
            ⟨0x0EC, addr, some r, false⟩)
        | _ => .next s
  | _ => .next s

/-! ## SVLIST (R351) -/

/-- How SVLIST comes out: it waits, it traps without having changed anything (R418), or it has written some
words. -/
inductive ListRun where
  | wait (c : Check)
  | fail (cause : Nat) (addr : DWord)
  | done (s : State) (words : Nat)

/-- The word of a kept sub-block (R351). -/
def listWord (page j : Nat) : Word := BitVec.ofNat 32 (page * 8 + j)

/-- The bytes that the kept sub-blocks of a page append. -/
def listBytes (page bits : Nat) : List Byte :=
  ((List.range 8).filter fun j => bits.testBit j).flatMap fun j => leBytes 4 (listWord page j).toNat

/-- Runs the list entries of SVLIST from entry i on; `w` words are written (R351) (DEDUCED 50). -/
def State.runList (s : State) (a : Actor) (list bitmap out i n w : Nat) : ListRun :=
  match n with
  | 0 => .done s w
  | n + 1 =>
    let reads := localPieces false (bitmap + i) 1
    match s.checkPieces a.member reads with
    | .wait c => .wait c
    | .fail c x => .fail c x
    | .ok =>
      let (s, bs) := s.readPieces a reads
      let bits := leNat bs
      if bits = 0 then State.runList s a list bitmap out (i + 1) n w
      else
        let entry := localPieces false (list + 8 * i) 4
        match s.checkPieces a.member entry with
        | .wait c => .wait c
        | .fail c x => .fail c x
        | .ok =>
          let (s, ps) := s.readPieces a entry
          let data := listBytes (leNat ps) bits
          let dst := localPieces true (out + 4 * w) data.length
          match s.checkPieces a.member dst with
          | .wait c => .wait c
          | .fail c x => .fail c x
          | .ok => State.runList (s.writePieces a dst data) a list bitmap out (i + 1) n (w + data.length / 4)

/-- The checks of SVLIST in order: the offending value (R351). -/
def svlistBad (m : Member) (out list n bitmap : Word) : Option DWord :=
  if out.toNat % 4 ≠ 0 then some (out.setWidth 64)
  else if entriesBad n.toNat then some (n.setWidth 64)
  else if listBad m list.toNat n.toNat then some (list.setWidth 64)
  else if bitmapBad m bitmap.toNat n.toNat then some (bitmap.setWidth 64)
  else if m.scratchBytes < out.toNat + 32 * n.toNat then some (out.setWidth 64)
  else none

/-- R351: SVLIST. -/
def execSvlist (d b : Name) (s : State) : Host.Outcome State Fault Refusal :=
  issueWord (.svlist d b) s fun s t =>
    match s.member? t.member with
    | none => s
    | some m =>
      let list := s.name t b
      let n := s.name t (nameAt b 1)
      let bitmap := s.name t (nameAt b 3)
      let out := s.name t d
      if (s.pool? m.part).isNone then s.trap t.uid 0x0E9 0
      else match svlistBad m out list n bitmap with
        | some x => s.trap t.uid 0x0EA x
        | none =>
          if !s.caughtUp t then s
          else
            let s' := s.tick t.uid (agentT t.uid)
            let a : Actor := ⟨agentT t.uid, s'.clkOf t.uid, m.id, t.core, .t⟩
            match s'.runList a list.toNat bitmap.toNat out.toNat 0 n.toNat 0 with
            | .wait c => s.waitOnFor m.part t c
            | .fail c x => s.trap t.uid c x
            | .done s w => s.result t d (BitVec.ofNat 32 w)

end Sys2Proof.Machine
end

