-- ==== Sys2Proof/Machine/Records.lean ====
section
/-! DEFINITION. Launch records and member templates (spec/02_launched.md R50, R51, R54,
spec/01_described.md R16, R24, R25): their bytes, the checks of their fields, their limits, and the extents
of their operands and static copy schedules. -/
namespace Sys2Proof.Machine

open Sys2Proof

/-! ## The bytes of a record (R24, R50) -/

/-- A tile operand entry in 16 bytes (R24). -/
def operandOf (bs : List Byte) : TileOperand :=
  ⟨leDWord (slice bs 0 8), sliceNat bs 8 2, sliceNat bs 10 2, sliceNat bs 12 2, bs.getD 14 0, bs.getD 15 0⟩

/-- A launch record in 256 bytes (R50); `resOk` says that its reserved fields are zero. -/
def recordOf (bs : List Byte) : LaunchRec where
  container := leWord (slice bs 0 4)
  function := leWord (slice bs 4 4)
  version := leWord (slice bs 8 4)
  entry := leWord (slice bs 12 4)
  cls := sliceNat bs 16 1
  width := sliceNat bs 17 1
  regs := sliceNat bs 18 1
  scratch := sliceNat bs 19 1
  acc := sliceNat bs 20 1
  tiles := sliceNat bs 21 1
  tags := sliceNat bs 22 1
  rings := sliceNat bs 23 1
  depth := sliceNat bs 24 1
  cqcrew := sliceNat bs 25 1
  spcrews := sliceNat bs 26 1
  carrypred := bs.getD 27 0
  spslots := sliceNat bs 28 2
  flags := sliceNat bs 30 2
  members := sliceNat bs 32 4
  gate := leWord (slice bs 36 4)
  done := leWord (slice bs 40 4)
  carry := BitVec.ofNat 128 (sliceNat bs 48 16)
  args := (List.range 16).map fun i => leWord (slice bs (64 + 4 * i) 4)
  schedbase := leDWord (slice bs 128 8)
  schedcount := sliceNat bs 136 2
  runlimit := sliceNat bs 140 4
  replytag := leDWord (slice bs 144 8)
  operands := (List.range 4).map fun i => operandOf (slice bs (192 + 16 * i) 16)
  resOk := sliceNat bs 44 4 == 0 && sliceNat bs 138 2 == 0 && sliceNat bs 152 40 == 0

/-! ## Check 1: reserved fields and ranges (R50, R51) -/

/-- The access bits of a tile operand: a used operand has some (R24). -/
def TileOperand.used (o : TileOperand) : Bool := o.kind.extractLsb' 2 2 != 0

/-- A tile operand's reserved bits are zero and the fields of a used one lie in their ranges (R24). -/
def TileOperand.ok (o : TileOperand) : Bool :=
  o.kind.extractLsb' 4 4 == 0 && o.hint.extractLsb' 1 7 == 0 &&
    (!o.used || (decide (1 ≤ o.rows) && decide (1 ≤ o.cols)))

/-- Reserved fields are zero and every field lies in its range (R50). -/
def LaunchRec.fieldsOk (d : LaunchRec) : Bool :=
  d.resOk && decide (d.cls ≤ 1) && decide (1 ≤ d.width ∧ d.width ≤ 64) &&
    decide (2 ≤ d.regs ∧ d.regs ≤ 32) && decide (d.scratch ≤ 96) && decide (d.acc ≤ 64) &&
    decide (d.tiles ≤ 32) && decide (d.tags ≤ 8) && decide (d.rings ≤ 16) &&
    (d.depth == 0 || decide (2 ≤ d.depth ∧ d.depth ≤ 8)) && decide (d.cqcrew ≤ 64) &&
    !d.carrypred.getLsbD 0 && decide (d.spslots ≤ 2047) && decide (d.flags ≤ 3) &&
    decide (1 ≤ d.members ∧ d.members ≤ 65536) && !d.carry.getLsbD 0 && d.schedbase.toNat % 32 == 0 &&
    decide (d.schedcount ≤ 1024) && d.operands.all TileOperand.ok

/-! ## Check 6: the limits of R16, R17 and R51 -/

/-- The column of R16 for a container class (0 floor, 9 H9) and a core class. -/
structure Column where
  regs : Nat
  units : Nat
  accs : Nat
  tiles : Nat
  tags : Nat
  copies : Nat
  depth : Nat
  rings : Nat
  deriving DecidableEq, Repr

/-- The columns of R16. -/
def columnOf (container : Nat) (c : CoreClass) : Column :=
  if container = 0 then ⟨128, 32, 16, 8, 4, 16, 4, 8⟩
  else match c with
    | .mcore => ⟨512, 96, 64, 32, 8, 256, 8, 16⟩
    | .score => ⟨512, 64, 0, 0, 8, 128, 8, 8⟩

/-- A record exceeds its column of R16 or a limit of R51. -/
def LaunchRec.over (d : LaunchRec) (container : Nat) : Bool :=
  let c := columnOf container d.coreClass
  let t := totals d.coreClass
  decide (c.regs < d.regs * 16) || decide (c.units < d.scratch) || decide (c.accs < d.acc) ||
    decide (c.tiles < d.tiles) || decide (c.tags < d.tags) || decide (c.depth < d.depth) ||
    decide (c.rings < d.rings) || decide (c.copies < d.cqcrew * (1 + d.spcrews)) ||
    (container == 0 && d.entry != 0xFFFFFFFF) ||
    decide (t.slots < d.width + d.spslots) || decide (t.regs < (d.width + d.spslots) * d.regs * 16) ||
    (d.cls == 1 && (d.flags.testBit 0 || d.acc != 0 || d.tiles != 0 || decide (64 < d.scratch)))

/-- The scratch images of a function in a version (R13). -/
def Version.imagesOf (v : Version) (f : Word) : List (Nat × List Byte) :=
  (v.scratch.filter fun x => x.1 == f).map fun x => x.2

/-- A scratch image reaches beyond the declared scratchpad (R13). -/
def Version.imageOver (v : Version) (d : LaunchRec) : Bool :=
  (v.imagesOf d.function).any fun i => decide (d.scratch * 65536 < i.1 + i.2.length)

/-! ## Extents (R25, R55) -/

/-- The bits of an element of a tile operand (R24). -/
def TileOperand.bits (o : TileOperand) : Nat := 4 * 2 ^ (o.kind.extractLsb' 0 2).toNat
/-- The bytes of a row of a tile operand; half a byte that an odd number of 4-bit elements ends in counts whole
(DESIGN CHOICE 71). -/
def TileOperand.rowBytes (o : TileOperand) : Nat := (o.cols * o.bits + 7) / 8
/-- The pitch of a tile operand in bytes (R24). -/
def TileOperand.pitch (o : TileOperand) : Nat := if o.stride = 0 then o.rowBytes else o.stride * 64

/-- The bytes from a tile operand's base to its end (R25). -/
def TileOperand.bytes (o : TileOperand) : Nat := (o.rows - 1) * o.pitch + o.rowBytes

/-- Every used operand lies in the partition's memory ranges (R25). -/
def LaunchRec.operandsIn (d : LaunchRec) (ranges : List (DWord × DWord)) : Bool :=
  d.operands.all fun o => !o.used || inRanges ranges o.base.toNat o.bytes

/-- A static schedule entry in 32 bytes (R54). -/
def schedOf (bs : List Byte) : SchedEntry where
  dst := leDWord (slice bs 0 8)
  src := leDWord (slice bs 8 8)
  rowbytes := sliceNat bs 16 4
  rows := sliceNat bs 20 2
  dpitch := sliceNat bs 22 2
  spitch := sliceNat bs 24 2
  eflags := sliceNat bs 26 2
  barrier := sliceNat bs 28 4
  started := false
  complete := false
  clk := []

/-- The bytes that one side of a schedule entry spans (R54). -/
def SchedEntry.span (e : SchedEntry) (pitch : Nat) : Nat :=
  (e.rows - 1) * (if pitch = 0 then e.rowbytes else pitch * 64) + e.rowbytes

/-- An address in the local aperture. -/
def isLocal (a : DWord) : Bool := decide ((a - localBase).toNat < 2 ^ 24)
/-- An address in the cluster aperture; which scratchpad it reaches is not known before dispatch. -/
def isCluster (a : DWord) : Bool := decide ((a - clusterBase).toNat < 2 ^ 26)

/-- A local extent exceeds the record's scratch (R55). -/
def scratchOver (d : LaunchRec) (a : DWord) (n : Nat) : Bool :=
  isLocal a && decide (d.scratch * 65536 < (a - localBase).toNat + n)

/-- A global extent leaves the partition's memory ranges (R55). -/
def globalOut (ranges : List (DWord × DWord)) (a : DWord) (n : Nat) : Bool :=
  !isLocal a && !isCluster a && !inRanges ranges a.toNat n

/-- A schedule entry's fields or scratchpad extents do not fit its record (R54, R55). -/
def SchedEntry.overScratch (e : SchedEntry) (d : LaunchRec) : Bool :=
  e.rowbytes == 0 || decide (2 ^ 24 < e.rowbytes) || e.rows == 0 || decide (8 ≤ e.eflags) ||
    (e.eflags.testBit 0 && (e.barrier % 16 != 0 || decide (d.scratch * 65536 < e.barrier + 16))) ||
    scratchOver d e.dst (e.span e.dpitch) || scratchOver d e.src (e.span e.spitch)

/-- An extent of a schedule entry leaves the partition's memory ranges (R55) (DEDUCED 40). -/
def SchedEntry.outOfRanges (e : SchedEntry) (ranges : List (DWord × DWord)) : Bool :=
  globalOut ranges e.dst (e.span e.dpitch) || globalOut ranges e.src (e.span e.spitch)

/-- What a record's schedule comes to: too large for its scratch, out of the ranges, or its entries. -/
inductive SchedRead where
  | over
  | outside
  | entries (l : List SchedEntry)
  deriving DecidableEq, Repr

end Sys2Proof.Machine
end

