-- ==== Sys2Proof/Machine/Posting.lean ====
section
/-! DEFINITION. Posting members (spec/02_launched.md R55, R56, spec/03_placed.md R57, R64): the schedule that
is read with them, their section, their entries; replies of Nymesque (R37, R39); and what a cancel does to
entries (R63, R79). -/
namespace Sys2Proof.Machine

open Sys2Proof

/-! ## Replies (R37, R39) -/

/-- Nymesque answers a request; the reply is kept for repeats of its identifier (R39). -/
def State.reply (s : State) (h : ReqHdr) (status : Nat) (body : ReplyBody) : State :=
  let m : Msg := .reply h.src h.reqid status body
  let seen := updateIf s.nym.seen (fun x => x.ep == h.ep && x.reqid == h.reqid) fun x => { x with reply := some m }
  ({ s with nym := { s.nym with seen := seen } }).send [m]

/-- What an endpoint outside knows of the accesses made (R366, R369). -/
def State.epClock (s : State) (src : Nat) : Clock := (assoc s.nym.epClks src).getD []
/-- An endpoint outside learns of accesses (DESIGN CHOICE 25). -/
def State.epLearns (s : State) (src : Nat) (c : Clock) : State :=
  { s with nym := { s.nym with epClks := assocSet s.nym.epClks src (Clock.join (s.epClock src) c) } }

/-! ## Reading shared memory for a posting -/

/-- Nymesque reads pieces of a partition's shared memory as they stand (R55), a page that is not there yet
being installed first (R213). -/
def State.readShared (s : State) (part : Nat) (ps : List Piece) : State × List Byte :=
  match ps with
  | [] => (s, [])
  | p :: rest =>
    let s := s.touch part p.addr.toNat
    let (s, bs) := match s.walk (s.rootOf part) p.addr.toNat with
      | none => (s, List.replicate p.size 0)
      | some w => s.readSeen ⟨0, w.pa⟩ p.size
    let (s, more) := State.readShared s part rest
    (s, bs ++ more)

/-- The static copy schedule of a record, read at its posting, and its checks (R55, R390): a base outside the
ranges and a bad field of an entry count as an extent and a limit that do not fit (DESIGN CHOICE 66). -/
def State.readSchedule (s : State) (part : Nat) (d : LaunchRec) : State × SchedRead :=
  if d.schedcount = 0 then (s, .entries [])
  else if !inRanges (s.rangesOf part) d.schedbase.toNat (32 * d.schedcount) then (s, .outside)
  else
    let (s, bs) := s.readShared part (piecesOf false d.schedbase (32 * d.schedcount))
    let l := (List.range d.schedcount).map fun i => schedOf (slice bs (32 * i) 32)
    if l.any fun e => e.overScratch d then (s, .over)
    else if l.any fun e => e.outOfRanges (s.rangesOf part) then (s, .outside)
    else (s, .entries l)

/-! ## The section of a member (R26, R57, R64) -/

/-- An entry of a section: Gated, Ready, Parked or Moving (R57). -/
def Member.holdsEntry (m : Member) : Bool :=
  match m.st with
  | .gated => true
  | .ready => true
  | .parked => true
  | .moving _ => true
  | _ => false

/-- A section has room for one more entry (R57). -/
def State.sectionFree (s : State) (sect : Nat) : Bool :=
  decide ((s.members.filter fun m => m.holdsEntry && m.sect == sect).length < 65536)

/-- Bytes of some pieces that a die homes, those that two pieces share counted for each (DESIGN CHOICE 99); a page
that is not there yet has no home (DEDUCED 39). -/
def State.bytesHomed (s : State) (part die : Nat) (ps : List Piece) : Nat :=
  (ps.map fun p => match s.walk (s.rootOf part) p.addr.toNat with
    | none => 0
    | some w => if homeDie w.pa = die then p.size else 0).foldl (· + ·) 0

/-- The pieces of a tile operand, row by row. -/
def TileOperand.pieces (o : TileOperand) : List Piece :=
  (List.range o.rows).flatMap fun r => piecesOf false (o.base + BitVec.ofNat 64 (r * o.pitch)) o.rowBytes

/-- The operands that place a member: the marked ones, or all used ones when none is marked (R26). -/
def LaunchRec.placing (d : LaunchRec) : List TileOperand :=
  let used := d.operands.filter TileOperand.used
  let marked := used.filter fun o => o.hint.getLsbD 0
  if marked.isEmpty then used else marked

/-- The die that a member prefers among some, the lowest number of those that tie; the issuing core's die
comes first when it is among them and its section has room (R26, R64). -/
def State.preferred (s : State) (part : Nat) (d : LaunchRec) (dies : List Nat) (own : Option Nat) : Option Nat :=
  let ps := d.placing.flatMap TileOperand.pieces
  let most := (dies.map fun x => s.bytesHomed part x ps).foldl Nat.max 0
  let tied := dies.filter fun x => s.bytesHomed part x ps == most
  if d.placing.isEmpty then none
  else match own with
    | some o => if tied.contains o && s.sectionFree o then some o else tied.head?
    | none => tied.head?

/-- The section of a member (R64); nothing when no section with a core for it has room. -/
def State.sectionFor (s : State) (part : Nat) (d : LaunchRec) (own : Option Nat) : Option Nat :=
  let dies := (List.range 4).filter fun x => !(s.coresOn part d.coreClass x).isEmpty
  let free := dies.filter s.sectionFree
  let other := match own with
    | some o => if free.contains o then some o else free.head?
    | none => free.head?
  match s.preferred part d dies own with
  | some p => if free.contains p then some p else other
  | none => other

/-! ## Entries -/

/-- What a posting makes its members from (R27, R56, R390). -/
structure Posting where
  desc : LaunchRec
  part : Nat
  job : DWord
  acct : Nat
  prio : Nat
  container : Word
  version : Nat
  ep : Nat
  byYput : Bool
  own : Option Nat
  sched : List SchedEntry
  clk : Clock
  deriving DecidableEq, Repr

/-- A posted member: Gated, not registered yet (R62, R63) (DESIGN CHOICE 4). -/
def Posting.member (p : Posting) (id index sect : Nat) (now : DWord) : Member where
  id := id
  job := p.job
  acct := p.acct
  part := p.part
  prio := p.prio
  index := index
  container := p.container
  version := p.version
  desc := p.desc
  mask := 0
  ep := p.ep
  byYput := p.byYput
  st := .gated
  sect := sect
  registered := false
  since := now
  firstSince := none
  skips := 0
  pinned := false
  moved := false
  onCore := false
  core := 0
  tids := []
  order := 0
  runSince := now
  billed := now
  used := 0
  issue := 0
  stop := .none
  stopAt := 0
  endCode := 0
  nfault := 0
  fault1 := none
  losses := []
  phase := none
  scratch := []
  regions := []
  rings := []
  tcfg := []
  tband := []
  tiles := []
  accs := []
  savedCells := []
  savedOwner := none
  query := []
  barriers := []
  sched := p.sched
  schedCtr := 0
  divert := none
  deferred := []
  clk := p.clk
  did := []
  quiesced := false
  freed := []
  retire := 0
  decremented := false

/-- An entry is cancelled where it stands (R63, R79). -/
def State.cancelEntry (s : State) (m : Nat) : State :=
  { s.modMember m fun x => { x with st := .cancelled, endCode := 1, pinned := false, phase := none } with
    counters := s.counters.map fun c => { c with gated := c.gated.filter fun x => x != m } }

/-- A section has applied the cancel mark of a job (R79). -/
def State.marked (s : State) (part : Nat) (job : DWord) (sect : Nat) : Bool :=
  s.marks.any fun k => k.part == part && k.job == job && k.sect == sect

/-- An entry that arrives in a section is cancelled there when its job is marked (R79). -/
def State.arriveEntry (s : State) (m : Member) : State :=
  if s.marked m.part m.job m.sect then s.cancelEntry m.id else s

/-- Posts members one by one from an index; nothing when one of them finds no room (R56, R390) (DESIGN CHOICE 52). -/
def State.postFrom (s : State) (p : Posting) (index n : Nat) : Option State :=
  match n with
  | 0 => some s
  | n + 1 =>
    match s.sectionFor p.part p.desc p.own with
    | none => none
    | some d =>
      let m := p.member s.nextId index d s.clock
      State.postFrom ({ s with nextId := s.nextId + 1, members := s.members ++ [m] }.arriveEntry m) p
        (index + 1) n

/-- A posting with a gate counter. -/
def Posting.gatedBy (p : Posting) (h : Word) : Posting := { p with desc := { p.desc with gate := h } }

/-- A posting without a handle makes a new counter at zero, which all of its members share and its job holds, in
the section of its first member (R50, R56, R59, R390) (DEDUCED 41). -/
def State.withGate (s : State) (p : Posting) : State × Posting :=
  if p.desc.gate ≠ noHandle then (s, p)
  else match s.newCounter p.part ((s.sectionFor p.part p.desc p.own).getD 0) 0 (some p.job) with
    | none => (s, p)
    | some (s, h) => (s, p.gatedBy h)

/-- Posts all members of a posting, or none (R56, R390). -/
def State.post (s : State) (p : Posting) : Option State :=
  let (s, p) := s.withGate p
  s.postFrom p 0 p.desc.members

end Sys2Proof.Machine
end

