-- ==== Sys2Proof/Machine/DryFit.lean ====
section
/-! DEFINITION. Dry-fit windows (spec/18_dry_fit.md R397 to R411) and the steps at the KV unit (R337). -/
namespace Sys2Proof.Machine

open Sys2Proof

/-! ## Issue (R401 to R405) -/

/-- The checks that all dry-fit instructions share, then those of their operands (R402). -/
def State.dfCause (s : State) (t : Thread) (bad : KvCfg → Member → Option DWord) : Option (Nat × DWord) :=
  match s.member? t.member with
  | none => some (0x0E9, 0)
  | some m =>
    match s.pool? m.part with
    | none => some (0x0E9, 0)
    | some c =>
      if !m.desc.flags.testBit 1 then some (0x093, 0) else (bad c m).map fun w => (0x090, w)

/-- A sequence number is bad. -/
def dfSeqBad (c : KvCfg) (q : Word) : Option DWord := (seqBad c q).map fun w => w.setWidth 64
/-- A window number is bad: 0. -/
def dfWinBad (w : Word) : Option DWord := if w = 0 then some 0 else none
/-- A word lies outside a range. -/
def dfRange (w : Word) (lo hi : Nat) : Option DWord :=
  if w.toNat < lo ∨ hi < w.toNat then some (w.setWidth 64) else none

/-- A dry-fit instruction of one thread: its checks, then its request (R402). -/
def dfWord (i : Instr) (s : State) (bad : State → Thread → KvCfg → Member → Option DWord)
    (req : State → Thread → KvReq) (dst : State → Thread → List Slot) : Host.Outcome State Fault Refusal :=
  issueWord i s fun s t =>
    match s.dfCause t (bad s t) with
    | some (c, x) => s.trap t.uid c x
    | none => s.sendKv t (req s t) (dst s t)

/-- R403: DFOPEN. -/
def execDfopen (d a : Name) (s : State) : Host.Outcome State Fault Refusal :=
  dfWord (.dfopen d a) s
    (fun s t c _ => ((dfSeqBad c (s.name t a)).or (dfWinBad (s.name t (nameAt a 1)))).or
      (dfRange (s.name t (nameAt a 2)) 1 16))
    (fun s t => .dfopen (s.name t a).toNat (s.name t (nameAt a 1)).toNat (s.name t (nameAt a 2)).toNat)
    fun s t => [s.slotOf t d]
/-- R407: DFDROP. -/
def execDfdrop (d a : Name) (s : State) : Host.Outcome State Fault Refusal :=
  dfWord (.dfdrop d a) s
    (fun s t c _ => (dfSeqBad c (s.name t a)).or (dfWinBad (s.name t (nameAt a 1))))
    (fun s t => .dfdrop (s.name t a).toNat (s.name t (nameAt a 1)).toNat) fun s t => [s.slotOf t d]
/-- R408: DFQ. -/
def execDfq (d a : Name) (s : State) : Host.Outcome State Fault Refusal :=
  dfWord (.dfq d a) s (fun s t c _ => dfSeqBad c (s.name t a)) (fun s t => .dfq (s.name t a).toNat)
    fun s t => s.pairSlots t d

/-- The operands of DFMARK (R401). -/
structure MarkArgs where
  seq : Word
  w : Word
  c : DWord
  off : Word
  size : Word
  deriving DecidableEq, Repr

/-- The block of DFMARK. -/
def State.markArgs (s : State) (t : Thread) (a : Name) : MarkArgs where
  seq := s.name t a
  w := s.name t (nameAt a 1)
  c := pairWord (s.name t (nameAt a 2)) (s.name t (nameAt a 3))
  off := s.name t (nameAt a 4)
  size := s.name t (nameAt a 5)

/-- The operand checks of DFMARK (R402, R404). -/
def MarkArgs.bad (x : MarkArgs) (c : KvCfg) (m : Member) : Option DWord :=
  let z := x.size.toNat
  let o := x.off.toNat
  ((dfSeqBad c x.seq).or (dfWinBad x.w)).or
    (if z % 16 ≠ 0 ∨ z < 16 ∨ 65536 < z then some (x.size.setWidth 64)
    else if o % 16 ≠ 0 ∨ m.scratchBytes < o + 16 * z then some (x.off.setWidth 64)
    else if x.c.toNat % 16 ≠ 0 ∨ sharedEnd ≤ x.c.toNat then some x.c
    else none)

/-- The marked area must lie outside mapped regions, rings and initialised barriers (R404). -/
def Member.markBad (m : Member) (off n : Nat) : Bool :=
  (m.regions.any fun r => overlaps r.off (r.units * 65536) off n) ||
  (m.rings.any fun r => overlaps r.base (r.slots.length * r.bytes) off n) ||
  (m.barriers.any fun b => overlaps b 16 off n)

/-- The 16-byte chunks of C that DFMARK checks as writes (R404). -/
def State.markChunks (s : State) (m : Member) (x : MarkArgs) : RowCheck :=
  let chunk (a : DWord) : Check := match s.target m a 16 with
    | .error c => .deny c a
    | .ok (.shared va) => s.declined m.part a (s.checkShared m.part ⟨a, 16, true, false⟩ va)
    | .ok _ => .deny 0x080 a
  match chunk x.c, chunk (x.c + x.size.setWidth 64 - 16) with
  | .deny c a, _ => .fail c a
  | .pass _ _, .deny c a => .fail c a
  | .pass _ _, .pass _ _ => .ok
  | .pass _ _, c => .wait c
  | c, _ => .wait c

/-- R404: DFMARK; a page of C that Nymesque installs makes the word wait. -/
def execDfmark (d a : Name) (s : State) : Host.Outcome State Fault Refusal :=
  issueWord (.dfmark d a) s fun s t =>
    let x := s.markArgs t a
    match s.dfCause t fun c m => x.bad c m, s.member? t.member with
    | some (c, v), _ => s.trap t.uid c v
    | none, none => s
    | none, some m =>
      match s.markChunks m x with
      | .fail c v => s.trap t.uid c v
      | .wait c => s.waitOnFor m.part t c
      | .ok =>
        if m.markBad x.off.toNat (16 * x.size.toNat) then s.trap t.uid 0x090 (x.off.setWidth 64)
        else s.sendKv t (.dfmark x.seq.toNat x.w.toNat x.c x.off.toNat x.size.toNat) [s.slotOf t d]

/-- The checks of DFKEEP, made with the operands of the gathering's lowest lane (R402, R405). -/
def State.keepCause (s : State) (t : Thread) (a : Name) : Option (Nat × DWord) :=
  s.dfCause t fun c _ => ((dfSeqBad c (s.name t a)).or (dfWinBad (s.name t (nameAt a 1)))).or
    (dfRange (s.name t (nameAt a 2)) 0 16)

/-- R405: DFKEEP gathers its crew. -/
def execDfkeep (d a : Name) (s : State) : Host.Outcome State Fault Refusal :=
  issueWord (.dfkeep d a) s fun s t =>
    if s.inBent t then s.trap t.uid 0x105 0 else s.gather t everyLane

/-- The request of a DFKEEP whose publication is complete, for every lane of its gathering, with a slot
for each (R405, R367). -/
def State.sendKeep (s : State) (ts : List Thread) (seq w k : Nat) (dst : List Slot) : State :=
  match minBy ts (·.lane) with
  | none => s
  | some t =>
    let s := s.tick t.uid (agentA t.uid)
    let (s, id) := s.launchFlight t (agentA t.uid) (.kv (.dfkeep seq w k)) dst
    (s.modFlight id fun f => { f with uids := ts.map (·.uid) }).waitEach ts (.reply id)

/-! ## Steps at the unit (R403 to R408) -/

/-- R403: the step of DFOPEN. -/
def KvUnit.dfopen (u : KvUnit) (member tenant q w nd : Nat) : KvUnit × KvReply :=
  let s := u.seq q
  let st := u.status q tenant
  if st ≠ 0 then (u, status1 st)
  else match u.window? q with
    | some x => (u, status1 (if x.member = member then 13 else 9))
    | none =>
      if w ≤ s.dfwin then (u, status1 10)
      else if 256 ≤ u.windows.length then (u, status1 11)
      else
        let x : Window := ⟨q, w, member, s.length, nd, [], []⟩
        ({ u with windows := u.windows ++ [x] }.modSeq q fun y => { y with dfwin := w }, status1 0)

/-- The window w of a sequence when a member opened it; else the status 12 or 9 (R405). -/
def KvUnit.openedBy (u : KvUnit) (member q w : Nat) : Except Nat Window :=
  match u.window? q with
  | none => .error 12
  | some x => if x.w ≠ w then .error 12 else if x.member ≠ member then .error 9 else .ok x

/-- R404: the step of DFMARK; a region is its slots and its committed state. -/
def KvUnit.dfmark (u : KvUnit) (member q w : Nat) (c : DWord) (off z : Nat) : KvUnit × KvReply :=
  if !(u.seq q).live then (u, status1 5)
  else match u.openedBy member q w with
    | .error st => (u, status1 st)
    | .ok x =>
      let meets (m : DWord × Nat × Nat) : Bool :=
        overlaps m.2.1 (x.nd * m.2.2) off (x.nd * z) || overlaps m.1.toNat m.2.2 c.toNat z
      if 4 ≤ x.marks.length || x.marks.any meets then
        (u, status1 15)
      else (u.modWindow q fun y => { y with marks := y.marks ++ [(c, off, z)] }, status1 0)

/-- R407: the step of DFDROP. -/
def KvUnit.dfdrop (u : KvUnit) (member q w : Nat) : KvUnit × KvReply :=
  match u.openedBy member q w with
  | .error st => (u, status1 st)
  | .ok x => (u.dropWindow x, status1 0)

/-- R408: the step of DFQ. -/
def KvUnit.dfq (u : KvUnit) (member tenant q : Nat) : KvReply :=
  let s := u.seq q
  let low : Word := if s.tenant ≠ tenant then 0 else BitVec.ofNat 32 s.dfwin
  if !s.live then .words [low, statusWord 5]
  else if s.tenant ≠ tenant then .words [0, statusWord 3]
  else match u.window? q with
    | none => .words [low, 0]
    | some w =>
      .words [low, field 1 23 1 ||| field (if w.member = member then 1 else 0) 22 1 ||| field w.nd 16 5 |||
        BitVec.ofNat 32 (Nat.min (u.drafts w).length 0xFFFF)]

/-- The provisional entries of a kept window: discarded ones are freed, the others are committed (R405). -/
def KvUnit.keepDrafts (u : KvUnit) (length : Nat) (es : List KvEntry) : KvUnit :=
  match es with
  | [] => u
  | e :: rest =>
    let first := e.key.block * pageTokens e.fp8
    let u := if length ≤ first then u.dropDrafts [e]
      else u.modEntry e.page fun x =>
        { x with provisional := false, window := 0, count := Nat.min x.count (length - first) }
    KvUnit.keepDrafts u length rest

/-- The touched entries of a kept window (R405). -/
def KvUnit.keepTouched (u : KvUnit) (length : Nat) (ts : List (KvKey × Nat)) : KvUnit :=
  match ts with
  | [] => u
  | t :: rest =>
    let raise (e : KvEntry) : KvEntry := { e with
      count := Nat.max e.count (Nat.min t.2 (length - t.1.block * pageTokens e.fp8)) }
    let u := { u with entries := updateIf u.entries (fun e => e.valid && e.key == t.1) raise }
    KvUnit.keepTouched (u.modFar t.1 raise) length rest

/-- R405: the table changes of a keep that passes its checks. -/
def KvUnit.keep (u : KvUnit) (pages : Nat) (w : Window) (k : Nat) : KvUnit :=
  let length := w.base + k
  let old := (u.seq w.seq).length
  let u := (u.keepDrafts length (u.drafts w)).keepTouched length w.touched
  let u := (u.modSeq w.seq fun s => { s with length := Nat.max s.length length }).slide pages w.seq old length
  { u with windows := u.windows.filter fun x => x.seq != w.seq }

/-- The accesses of the promotion copies to C (R405). -/
def Window.targets (w : Window) : List (List Piece) := w.marks.map fun m => piecesOf true m.1 m.2.2

/-- The thread that issued a request goes on with a further path T epoch of its own (R405). -/
def State.tickFor (s : State) (f : Flight) : State × Clock :=
  let agent := agentT f.owner
  let clk := Clock.raise f.clk agent (Clock.get f.clk agent + 1)
  (s.modThread f.owner fun t => { t with
    clk := Clock.join t.clk clk, issued := joinPath t.issued .t clk }, clk)

/-- Writes pieces whose checks pass as path T stores of the issuing thread (R405). -/
def State.storePieces (s : State) (f : Flight) (clk : Clock) (m : Member) (ps : List Piece) (bs : List Byte) :
    State :=
  match ps with
  | [] => s
  | p :: rest =>
    let s := match s.checkPiece m.id p with
      | .pass l leaf =>
        let s := match leaf with
          | none => s
          | some e => (s.raiseHeat e true).sample m.part
              ⟨f.core, ((s.thread? f.owner).map Thread.tid).getD 0xFFFF, 1, p.size, 0, m.id⟩ p.addr l.off
        (s.writeFor (agentT f.owner) clk l (bs.take p.size)).chargeHome m.id l p.size
      | _ => s
    State.storePieces s f clk m rest (bs.drop p.size)

/-- Bytes hold unbounded values until a later write (R405). -/
def State.unbound (s : State) (l : Loc) (n : Nat) : State :=
  match n with
  | 0 => s
  | n + 1 =>
    let here := l.plus n
    State.unbound { s with
      shadow := upsert s.shadow (fun x => x.loc == here) { s.shadowOf here with raced := true } } l n

/-- The bytes of pieces whose translation passes hold unbounded values. -/
def State.unboundPieces (s : State) (part : Nat) (ps : List Piece) : State :=
  match ps with
  | [] => s
  | p :: rest =>
    let s := match s.walk (s.rootOf part) p.addr.toNat with
      | none => s
      | some w => s.unbound ⟨0, w.pa⟩ p.size
    State.unboundPieces s part rest

/-- Performs the promotion copies of a keep (R405): the slot of draft k - 1 of each region goes to C. One that
meets an uncorrectable error gives its address; C is unbounded then. -/
def State.promoteMarks (s : State) (f : Flight) (clk : Clock) (m : Member) (k : Nat)
    (ms : List (DWord × Nat × Nat)) : State × Option DWord :=
  match ms with
  | [] => (s, none)
  | x :: rest =>
    let slot := x.2.1 + (k - 1) * x.2.2
    let dst := piecesOf true x.1 x.2.2
    if s.meetsError ⟨m.id + 1, slot⟩ x.2.2 then
      (s.unboundPieces m.part dst, some (localBase + BitVec.ofNat 64 slot))
    else match s.checkPieces m.id dst with
      | .fail _ addr => (s.unboundPieces m.part dst, some addr)
      | _ =>
        let (s, bs) := s.readFor (agentT f.owner) clk 0 ⟨m.id + 1, slot⟩ x.2.2
        State.promoteMarks (s.storePieces f clk m dst bs) f clk m k rest

/-- How the keep of a request comes out at the unit (R405): what it answers, and what it learns of its own
copies. -/
inductive KeepStep where
  | wait (c : Check)
  | answer (s : State) (r : KvReply) (copied : Clock)

/-- R405, R406: the step of DFKEEP. -/
def State.keepStep (s : State) (f : Flight) (m : Member) (pages : Nat) (u : KvUnit) (q w k : Nat) : KeepStep :=
  match u.openedBy m.id q w with
  | .error st => .answer s (status1 st) []
  | .ok x =>
    if (u.seq q).poisoned then
      .answer (s.modKv m.part fun u => u.dropWindow x) (status1 2) []
    else if x.nd < k then .answer s (status1 14) []
    else if k = 0 then .answer (s.modKv m.part fun u => u.dropWindow x) (status1 0) []
    else
      match { s with broken := [] }.checkPieces m.id x.targets.flatten with
      | .wait c => .wait c
      | .fail cause addr => .answer s (.trap cause addr) []
      | .ok =>
        let (s, clk) := s.tickFor f
        match s.promoteMarks f clk m k x.marks with
        | (s, some addr) => .answer s (.trap 0x087 addr) clk
        | (s, none) => .answer (s.modKv m.part fun u => u.keep pages x k) (status1 0) clk

/-- The step of a request that reaches no memory. -/
def KvUnit.step (u : KvUnit) (pages member tenant : Nat) (r : KvReq) : KvUnit × KvReply :=
  match r with
  | .look k => (u, u.look pages member tenant k)
  | .alloc k n fp8 window => u.alloc pages member tenant k n fp8 window
  | .free k => u.freeOne pages member tenant k
  | .freeAll q => u.freeAll pages tenant q
  | .share c p n => u.share tenant c p n
  | .dfopen q w nd => u.dfopen member tenant q w nd
  | .dfmark q w c off z => u.dfmark member q w c off z
  | .dfdrop q w => u.dfdrop member q w
  | .dfq q => (u, u.dfq member tenant q)
  | .dfkeep _ _ _ => (u, status1 0)

/-! ## Ordering of the steps (R346, R367) -/

/-- What the KVALLOCs of a sequence have published. -/
def KvUnit.clk (u : KvUnit) (q : Nat) : Clock := (assoc u.clks q).getD []

/-- The sequence a request names. -/
def KvReq.seq (r : KvReq) : Nat :=
  match r with
  | .look k => k.seq
  | .alloc k _ _ _ => k.seq
  | .free k => k.seq
  | .freeAll q => q
  | .share c _ _ => c
  | .dfopen q _ _ => q
  | .dfmark q _ _ _ _ => q
  | .dfkeep q _ _ => q
  | .dfdrop q _ => q
  | .dfq q => q

/-- A request acquires as KVLOOK does (R346, R403, R408). -/
def KvReq.looks (r : KvReq) : Bool :=
  match r with
  | .look _ => true
  | .dfopen _ _ _ => true
  | .dfq _ => true
  | _ => false

/-- What a step acquires: every DFKEEP that precedes it at the unit, and as a KVLOOK the KVALLOCs of its
sequence and of its parents (R346, R367). -/
def KvUnit.learnt (u : KvUnit) (r : KvReq) : Clock :=
  if r.looks then (u.chain 5 (some r.seq)).foldl (fun c q => Clock.join c (u.clk q)) u.keeps else u.keeps

/-- What a request publishes with its step: a KVALLOC on its sequence, a DFKEEP to every later step. -/
def KvUnit.published (u : KvUnit) (r : KvReq) (clk : Clock) : KvUnit :=
  match r with
  | .alloc k _ _ _ => { u with clks := assocSet u.clks k.seq (Clock.join (u.clk k.seq) clk) }
  | .dfkeep _ _ _ => { u with keeps := Clock.join u.keeps clk }
  | _ => u

/-- The step of a request is answered (R345); `copied` is what the step's own copies have done (R405). -/
def State.answerKv (s : State) (f : Flight) (part : Nat) (r : KvReq) (reply : KvReply) (learnt copied : Clock) :
    State :=
  let s := s.modKv part fun u => u.published r (Clock.join f.clk copied)
  s.modFlight f.id fun g =>
    let g := { g with applied := true, learnt := Clock.join learnt copied }
    match reply with
    | .words ws => { g with reply := ws }
    | .trap c a => { g with trap := some (c, a) }

/-- A request is applied at its partition's unit (R337); an entry that took a frame with an error is poisoned with the
step (R341). -/
def State.kvStep (s : State) (f : Flight) (r : KvReq) (m : Member) (u : KvUnit) (c : KvCfg) : State :=
  let learnt := u.learnt r
  match r with
  | .dfkeep q w k =>
    match s.keepStep f m c.pages u q w k with
    | .wait x => s.waitOn m.part ⟨f.agent, f.clk, m.id, m.core, .t⟩ x
    | .answer s reply copied => s.answerKv f m.part r reply learnt copied
  | r =>
    let (v, reply) := u.step c.pages m.id (s.tenantOf m) r
    ((s.modKv m.part fun _ => v).answerKv f m.part r reply learnt []).poisonBroken

/-- KV_UNIT_STEP (R337): the request named by the input, in the order of arrival that the events give;
what happens before it is performed first, and a page in transit makes it wait (R340, R346). -/
def execKvUnitStep (s : State) : Host.Outcome State Fault Refusal :=
  match s.input with
  | .id i =>
    match s.flight? i with
    | none => .next s
    | some f =>
      match f.op, s.member? f.member with
      | .kv r, some m =>
        match s.part? m.part, s.pool? m.part with
        | some p, some c =>
          if f.applied || !s.clear f || p.kv.waits c.pages m.id (s.tenantOf m) r then .next s
          else .next (s.kvStep f r m p.kv c)
        | _, _ => .next s
      | _, _ => .next s
  | _ => .next s

end Sys2Proof.Machine
end

