-- ==== Sys2Proof/Machine/Sync.lean ====
section
/-! DEFINITION. Synchronisation (spec/17_sync.md R374 to R387, spec/16_memory_model.md R359, R363, R368):
PHASE, fences, tag barriers and monitors; the release of gatherings (R128); and what happens to waiting
threads: held labels, pause windows and replies (R126, R129, R436). -/
namespace Sys2Proof.Machine

open Sys2Proof

/-! ## Words -/

/-- R375: PHASE gathers its crew; a run that an `xstat` of the program's own reopened over it is the
covered PHASE of R99 (DEDUCED 46). -/
def execPhase (s : State) : Host.Outcome State Fault Refusal :=
  issueWord .phase s fun s t =>
    if t.runs ≠ [] then s.trap t.uid 0x00A 0
    else if s.inBent t then s.trap t.uid 0x105 0
    else s.gather t everyLane

/-- The path of a path code (R374). -/
def pathOf (k : BitVec 3) : Path :=
  match k.toNat with
  | 0 => .t
  | 1 => .c
  | 2 => .m
  | 3 => .i
  | 4 => .s
  | _ => .n

/-- What a thread's accesses of a path are known by (R368): those of its commands, and the tiles that its
running subscriptions have moved. -/
def State.pathDone (s : State) (t : Thread) (p : Path) : Clock :=
  match p with
  | .i => (s.subs.filter fun x => x.uid == t.uid).foldl (fun c x => Clock.join c x.clk) (pathClock t.issued .i)
  | p => pathClock t.issued p

/-- R368, R376: a fence from path x to path y holds later accesses of path y for those of path x, the
later tiles of running subscriptions among them. -/
def State.fence (s : State) (t : Thread) (x y : Path) : State :=
  let ids := s.liveOf t x
  let c := s.pathDone t x
  let hold (u : Thread) : Thread :=
    { u with
      fenceIds := upsert u.fenceIds (fun f => f.1 == y) (y, u.fenced y ++ ids)
      fenceClk := joinPath u.fenceClk y c
      clk := if y = .t then Clock.join u.clk c else u.clk }
  let s := s.modThread t.uid hold
  if y = .i then
    { s with subs := updateIf s.subs (fun q => q.uid == t.uid) fun q =>
        { q with after := q.after ++ ids, clk := Clock.join q.clk c } }
  else s

/-- Every path T write of a thread has been performed (R368). -/
def State.writesDone (s : State) (t : Thread) : Bool :=
  !(s.flights.any fun f => f.owner == t.uid && !f.applied && f.op.writes)

/-- R376: FENCE; FENCE.tt adds no order, and holds the thread until its earlier path T writes are performed (R368). -/
def execFence (a b : BitVec 3) (s : State) : Host.Outcome State Fault Refusal :=
  issueWord (.fence a b) s fun s t =>
    if pathOf a = .t ∧ pathOf b = .t then (if s.writesDone t then s.finish t.uid else s)
    else (s.fence t (pathOf a) (pathOf b)).finish t.uid

/-- A tag is at or above the member's declared tags (R382). -/
def State.tagBad (s : State) (t : Thread) (tag : BitVec 3) : Bool :=
  match s.member? t.member with
  | none => true
  | some m => decide (m.desc.tags ≤ tag.toNat)

/-- A tag-barrier word that gathers its crew (R384). -/
def gatherTag (i : Instr) (pub : Bool) (tag : BitVec 3) (s : State) : Host.Outcome State Fault Refusal :=
  issueWord i s fun s t =>
    if pub && s.inBent t then s.trap t.uid 0x105 0
    else if s.tagBad t tag then s.trap t.uid 0x142 (tag.setWidth 64)
    else s.gather t everyLane

/-- R384: TBAR. -/
def execTbar (a : BitVec 3) (b : Name) (s : State) : Host.Outcome State Fault Refusal :=
  gatherTag (.tbar a b) false a s
/-- R384: TBAR.p. -/
def execTbarP (a : BitVec 3) (b : Name) (s : State) : Host.Outcome State Fault Refusal :=
  gatherTag (.tbarP a b) true a s
/-- R384: TBARA. -/
def execTbara (d : Name) (a : BitVec 3) (b : Name) (s : State) : Host.Outcome State Fault Refusal :=
  gatherTag (.tbara d a b) false a s
/-- R384: TBARA.p. -/
def execTbaraP (d : Name) (a : BitVec 3) (b : Name) (s : State) : Host.Outcome State Fault Refusal :=
  gatherTag (.tbaraP d a b) true a s

/-- A job's barrier of a tag (R383). -/
def State.tagBarrier (s : State) (part : Nat) (job : DWord) (tag : Nat) : TagBarrier :=
  (s.tags.find? fun b => b.part == part && b.job == job && b.tag == tag).getD
    ⟨part, job, tag, 0, none, 0, [], 0, none, [], []⟩
/-- Sets a job's barrier of a tag. -/
def State.setTag (s : State) (b : TagBarrier) : State :=
  { s with tags := upsert s.tags (fun x => x.part == b.part && x.job == b.job && x.tag == b.tag) b }

/-- A generation has released (R384). -/
def TagBarrier.isReleased (b : TagBarrier) (gen : Nat) : Bool :=
  match b.released with
  | none => false
  | some r => decide ((r + 65536 - gen % 65536) % 65536 < 32768)

/-- What a wait on a generation learns: with `.p` all that its arrivals published, else their atomics
(R363). -/
def TagBarrier.learnt (b : TagBarrier) (gen : Nat) (view : Bool) : Clock :=
  let c := (assoc b.outs (gen % 65536)).getD []
  if view then c else c.filter fun x => x.1 % 4 == 1

/-- R384: TBARW in either form. -/
def tagWait (i : Instr) (view : Bool) (tag : BitVec 3) (b : Name) (s : State) :
    Host.Outcome State Fault Refusal :=
  issueWord i s fun s t =>
    match s.member? t.member with
    | none => s
    | some m =>
      if s.tagBad t tag then s.trap t.uid 0x142 (tag.setWidth 64)
      else
        let x := s.tagBarrier m.part m.job tag.toNat
        let gen := (s.name t b).toNat % 65536
        if x.isReleased gen then
          (s.modThread t.uid fun u => u.learn (x.learnt gen view)).finish t.uid
        else s.setWait t.uid (.tag tag.toNat gen view)

/-- R384: TBARW. -/
def execTbarw (a : BitVec 3) (b : Name) (s : State) : Host.Outcome State Fault Refusal :=
  tagWait (.tbarw a b) false a b s
/-- R384: TBARW.p. -/
def execTbarwP (a : BitVec 3) (b : Name) (s : State) : Host.Outcome State Fault Refusal :=
  tagWait (.tbarwP a b) true a b s

/-- R386: MONITOR. -/
def execMonitor (d a : Name) (s : State) : Host.Outcome State Fault Refusal :=
  issueWord (.monitor d a) s fun s t => s.attempt t (.monitor (s.addrPair t a) [s.slotOf t d]) false

/-- R387: MWAITM. -/
def execMwaitm (d a : Name) (s : State) : Host.Outcome State Fault Refusal :=
  issueWord (.mwaitm d a) s fun s t =>
    match t.monitor with
    | none => s.result t d 2
    | some m =>
      if m.hit then (s.modThread t.uid fun x => { x with monitor := none }).result t d 1
      else (s.openPause t.uid s.clock (pauseLength (s.name t a)) true).result t d 0

/-! ## Gatherings (R128) -/

/-- A thread waits in the gathering of a crew at a word. -/
def Thread.gathersAt (t : Thread) (crew : Nat) (pc : Word) : Bool :=
  t.crew == crew && t.pc == pc && match t.wait with
    | .gather _ => true
    | _ => false

/-- The mask a thread entered a gathering with. -/
def Thread.gatherMask (t : Thread) : DWord :=
  match t.wait with
  | .gather m => m
  | _ => 0

/-- Every lane below the crew's width that a mask of the gathering names is settled (R128). -/
def State.gathered (s : State) (c : Crew) (ts : List Thread) : Bool :=
  let mask := ts.foldl (fun m t => m ||| t.gatherMask) 0
  let here := ts.map (·.lane)
  let held := ((s.crewThreads c.cid).filter Thread.lives).map (·.lane)
  (List.range c.width).all fun l => !mask.getLsbD l || here.contains l || !held.contains l

/-- The atomics of threads: what an arrival without `.p` publishes (R363). -/
def atomicsOf (ts : List Thread) : Clock :=
  ts.foldl (fun c t => Clock.raise c (agentA t.uid) (Clock.get t.clk (agentA t.uid))) []

/-- An arrival of a crew sets out to the barrier tree; its lanes wait for it to be counted (R383). -/
def State.sendTag (s : State) (ts : List Thread) (m : Member) (tag count : Nat) (dst : Option (List Slot))
    (waits view : Bool) (clk : Clock) : State :=
  let t := ts.head?
  let a : TagArrival := ⟨s.nextId, m.part, m.job, tag, count, (t.map (·.crew)).getD 0, m.core,
    ts.map (·.uid), dst, waits, view, clk⟩
  { s with nextId := s.nextId + 1, tagArrivals := s.tagArrivals ++ [a] }.waitEach ts (.arrival a.id)

/-- Every thread waits with its own destination for the crew's publication. -/
def State.publishEach (s : State) (ts : List Thread) (next : Thread → AfterPhase) : State :=
  match ts with
  | [] => s
  | t :: rest => State.publishEach (s.setWait t.uid (.publish (next t))) rest next

/-- The release of a gathering at a tag-barrier word (R384). -/
def State.releaseTag (s : State) (ts : List Thread) (m : Member) (tag : BitVec 3) (b : Name) (d : Option Name)
    (pub : Bool) : State :=
  match minBy ts (·.lane) with
  | none => s
  | some l =>
    let count := (s.name l b).toNat
    let waits := d.isNone
    if pub then s.publishEach ts fun t => .arrive tag.toNat count (d.map fun d => [s.slotOf t d]) waits
    else s.sendTag ts m tag.toNat count (d.map fun d => ts.map fun t => s.slotOf t d) waits false (atomicsOf ts)

/-- The release of a gathering at DFKEEP: the checks with the operands of the lowest lane, then the
crew's publication (R405). -/
def State.releaseKeep (s : State) (ts : List Thread) (d a : Name) : State :=
  match minBy ts (·.lane) with
  | none => s
  | some l =>
    match s.keepCause l a with
    | some (c, x) => s.trapEach ts c x
    | none =>
      let q := (s.name l a).toNat
      let w := (s.name l (nameAt a 1)).toNat
      let k := (s.name l (nameAt a 2)).toNat
      s.publishEach ts fun t => .keep q w k [s.slotOf t d]

/-- The lanes of some threads whose predicate is true (R150). -/
def ballotMask (ts : List Thread) (p : BitVec 3) : DWord :=
  laneMask ((ts.filter fun t => t.pred p).map (·.lane))

/-- A gathering releases: what its word does next (R128, R148, R150, R178, R375, R384, R405). -/
def State.releaseGathering (s : State) (m : Member) (ts : List Thread) (i : Instr) : State :=
  match i with
  | .rejoin _ => s.finishAll ts
  | .ballot d _ p => s.pairEach ts d (ballotMask ts p)
  | .frame a b => if s.settled (clocksOf ts) && ts.all s.caughtUp then s.startFrame m ts a b else s
  | .phase => s.waitEach ts (.publish .boundary)
  | .tbar t b => s.releaseTag ts m t b none false
  | .tbarP t b => s.releaseTag ts m t b none true
  | .tbara d t b => s.releaseTag ts m t b (some d) false
  | .tbaraP d t b => s.releaseTag ts m t b (some d) true
  | .dfkeep d a => s.releaseKeep ts d a
  | _ => s

/-- A member's threads go on: it is Running, not stopping and not restoring. -/
def Member.goesOn (m : Member) : Bool := m.st = .running && m.stop = .none && m.divert.isNone

/-- GATHERING_RELEASE (R128): the gathering of the crew and word named by the input. -/
def execGatheringRelease (s : State) : Host.Outcome State Fault Refusal :=
  match s.input with
  | .gathering crew pc =>
    let ts := sortBy (·.lane) (s.threads.filter fun t => t.gathersAt crew pc)
    match s.crew? crew, ts with
    | some c, t :: _ =>
      match s.member? c.member, (s.fetchWord t).map decode with
      | some m, some (.ok i) =>
        if m.goesOn && s.gathered c ts then .next (s.releaseGathering m ts i) else .next s
      | _, _ => .next s
    | _, _ => .next s
  | _ => .next s

/-! ## Tag barriers (R383) -/

/-- The threads of some numbers that there are. -/
def State.threadsOf (s : State) (uids : List Nat) : List Thread := uids.filterMap s.thread?

/-- A counted arrival's lanes go on: TBARA returns the generation, TBAR waits for it (R384). -/
def State.countedLanes (s : State) (a : TagArrival) (gen : Nat) (uids : List Nat) (ds : List Slot) : State :=
  match uids with
  | [] => s
  | u :: rest =>
    let s := if a.waits then s.setWait u (.tag a.tag gen a.view)
      else (s.writeAll u (ds.take 1) [BitVec.ofNat 32 gen]).finish u
    State.countedLanes s a gen rest (ds.drop 1)

/-- The arrival reaches the tree: refused, or counted (R383). -/
def State.arriveTag (s : State) (a : TagArrival) : State :=
  let b := s.tagBarrier a.part a.job a.tag
  let full : Bool := b.count.any fun c => decide (c ≤ b.arrived)
  if full then s
  else
    let s := { s with tagArrivals := s.tagArrivals.filter fun x => x.id != a.id }
    if a.count = 0 ∨ 65535 < a.count ∨ (b.count.any fun c => c != a.count) then
      s.trapEach (s.threadsOf a.uids) 0x143 (BitVec.ofNat 64 a.count)
    else
      let die := dieOf a.core
      let s := s.setTag { b with
        count := some a.count
        arrived := b.arrived + 1
        dies := if b.dies.contains die then b.dies else b.dies ++ [die]
        lastAt := s.clock
        clk := Clock.join b.clk a.clk }
      s.countedLanes a b.num a.uids (a.dst.getD [])

/-- TAG_BARRIER_ARRIVAL (R383): the arrival named by the input, once what it publishes is performed; one
for the next generation comes after the release of a full one, and one of a lane that its trap would end once
that lane can end (R424). -/
def execTagBarrierArrival (s : State) : Host.Outcome State Fault Refusal :=
  match s.input with
  | .id i =>
    match s.tagArrivals.find? fun a => a.id == i with
    | none => .next s
    | some a => if s.settled a.clk && !a.uids.any s.trapHeld then .next (s.arriveTag a) else .next s
  | _ => .next s

/-- A waiter of a released generation goes on, and its core wakes (R83). -/
def State.releaseWaiter (s : State) (b : TagBarrier) (t : Thread) : State :=
  match t.wait with
  | .tag _ gen view => ((s.modThread t.uid fun u => u.learn (b.learnt gen view)).finish t.uid).wakeCore t.core
  | _ => s

/-- Every waiter of some. -/
def State.releaseWaiters (s : State) (b : TagBarrier) (ts : List Thread) : State :=
  match ts with
  | [] => s
  | t :: rest => State.releaseWaiters (s.releaseWaiter b t) b rest

/-- A thread waits on a released generation of a barrier. -/
def State.waitsOnTag (s : State) (b : TagBarrier) (t : Thread) : Bool :=
  match t.wait, s.member? t.member with
  | .tag tag gen _, some m => m.part == b.part && m.job == b.job && tag == b.tag && b.isReleased gen
  | _, _ => false

/-- TAG_BARRIER_RELEASE (R383): the full generation of the barrier named by the input releases, 64 cycles
after its last arrival, or 160 when its arrivals came from several dies. -/
def execTagBarrierRelease (s : State) : Host.Outcome State Fault Refusal :=
  match s.input with
  | .tag part job tag =>
    let b := s.tagBarrier part job tag
    let delay := if b.dies.length ≤ 1 then 64 else 160
    let full : Bool := b.count.any fun c => decide (c ≤ b.arrived)
    if full && decide (b.lastAt.toNat + delay ≤ s.clock.toNat) then
      let b := { b with
        num := (b.num + 1) % 65536
        count := none
        arrived := 0
        dies := []
        released := some b.num
        outs := assocSet b.outs b.num b.clk
        clk := [] }
      let s := s.setTag b
      .next (s.releaseWaiters b (s.threads.filter (s.waitsOnTag b)))
    else .next s
  | _ => .next s

/-! ## Labels and pauses -/

/-- JOIN_HOLD_TIMEOUT (R129): the thread named by the input was held at its label for 64 cycles; the threads
of its crew that are held there are released together. -/
def execJoinHoldTimeout (s : State) : Host.Outcome State Fault Refusal :=
  match s.input with
  | .id u =>
    match s.thread? u with
    | none => .next s
    | some t =>
      match t.wait with
      | .held since =>
        if since.toNat + 64 ≤ s.clock.toNat then
          .next (s.releaseLabel t.crew t.pc)
        else .next s
      | _ => .next s
  | _ => .next s

/-- PAUSE_WINDOW_CLOSE (R126): the window of the thread named by the input has lasted its cycles. -/
def execPauseWindowClose (s : State) : Host.Outcome State Fault Refusal :=
  match s.input with
  | .id u =>
    match (s.thread? u).bind (·.pause) with
    | some e => if e ≤ s.clock then .next (s.modThread u fun t => { t with pause := none }) else .next s
    | none => .next s
  | _ => .next s

/-! ## Replies (R436) -/

/-- A request that holds its thread at its word. -/
def FlightOp.holds (op : FlightOp) : Bool :=
  match op with
  | .load _ _ _ => false
  | .store _ _ => false
  | .atomic _ _ _ _ _ => false
  | _ => true

/-- What an `.acq` atomic or a KV step acquired is behind the girt values that it returns (R190, R346, R360). -/
def State.girtsLearn (s : State) (ds : List Slot) (c : Clock) : State :=
  match ds with
  | [] => s
  | .girt f k g l :: rest =>
    State.girtsLearn (s.modFrame f fun x => { x with
      ring := updateIf x.ring (fun y => y.k == k && y.slot == g && y.lane == l) fun y =>
        { y with clk := Clock.join y.clk c } }) rest c
  | _ :: rest => State.girtsLearn s rest c

/-- The answer of a held request lands for each thread that waits for it: its result, or its trap; each
of several lanes has one slot. -/
def State.answerLanes (s : State) (f : Flight) (us : List Nat) (ds : List Slot) : State :=
  match us with
  | [] => s
  | u :: rest =>
    let mine := if rest.isEmpty then ds else ds.take 1
    let s := match f.trap with
      | some (c, a) => s.trap u c a
      | none => (((s.writeAll u mine f.reply).girtsLearn mine f.learnt).modThread u fun t => t.acquire f.learnt).finish u
    State.answerLanes s f rest (ds.drop 1)

/-- A compare-and-swap failed: the old value differs from the compare value. -/
def casFailed (k : AtomKind) (old : List Word) (compare : DWord) : Bool :=
  match k with
  | .cas => old.headD 0 != loWord compare
  | .cas64 => pairWord (old.headD 0) (old.getD 1 0) != compare
  | _ => false

/-- The reply of an atomic lands: the old value, what `.acq` acquired, and the pause of a failed compare with
a spin hint, whose cycles count from its issue (R126, R379, R380). -/
def State.landAtomic (s : State) (f : Flight) (k : AtomKind) (compare : DWord) (m : AtomMod) : State :=
  match f.uids with
  | [] => s.dropFlight f.id
  | u :: _ =>
    let s := s.landDue u f.id f.dst f.reply
    let s := if m.acq then
        (s.girtsLearn f.dst f.learnt).modThread u fun t =>
          { t.acquire f.learnt with wait := if t.wait = .reply f.id then .none else t.wait }
      else s
    let s := s.wakeCore f.core
    let n := spinCycles m.spin
    let s := if n ≠ 0 && casFailed k f.reply compare then
        s.openPause u f.time n false
      else s
    s.dropFlight f.id

/-- A load is performed and its result lands; a 16-byte load of a barrier is one indivisible look at it
(R206, R307). One whose home has gone reaches nothing, and what it returns is free (R434) (DESIGN CHOICE 82). -/
def State.landLoad (s : State) (f : Flight) (l : Loc) (size : Nat) (signed : Bool) : State :=
  let (s, bs) := if s.homeGone l then s.freeBytes size
    else s.readFor f.agent f.clk (if size = 16 then 16 else 0) l size
  let s := match f.uids with
    | [] => s
    | u :: _ => s.landDue u f.id f.dst (loadWords size signed bs)
  (s.chargeHome f.member l size).dropFlight f.id

/-- REPLY_LAND (R436): the reply of the flight named by the input lands, in the register its destination
named at issue, also while its member is away. -/
def execReplyLand (s : State) : Host.Outcome State Fault Refusal :=
  match s.input with
  | .id i =>
    match s.flight? i with
    | none => .next s
    | some f =>
      match f.op with
      | .load l n signed => if s.clear f && s.homeOpen l then .next (s.landLoad f l n signed) else .next s
      | .store _ _ => .next s
      | .atomic _ k _ c m => if f.applied then .next (s.landAtomic f k c m) else .next s
      | _ =>
        if f.applied && !f.uids.any s.trapHeld then .next ((s.answerLanes f f.uids f.dst).dropFlight i)
        else .next s
  | _ => .next s

end Sys2Proof.Machine
end

