-- ==== Sys2Proof/Machine/Yard.lean ====
section
/-! DEFINITION. The work-creating words (spec/17_sync.md R388 to R394), the yard's answer to YPUT, and the
cancel marks of its sections (spec/03_placed.md R79 to R81). -/
namespace Sys2Proof.Machine

open Sys2Proof

/-! ## SPAWN (R389) -/

/-- Names 1 to 16 of a thread, read under its window (R389). -/
def State.spawnRegs (s : State) (t : Thread) : Map 32 :=
  (List.range 16).foldl (fun m i => Map.set m (i + 1) (s.name t (nameAt 1 i))) []

/-- Threads of a new crew, from lane `l` on (R389). -/
def State.spawnLanes (s : State) (t : Thread) (c : Crew) (regs : Map 32) (pc : Word) (l n : Nat) : State :=
  match n with
  | 0 => s
  | n + 1 =>
    let x : Thread := { freshThread s.nextId (s.freeTid t.member) t.core t.member c.cid l pc with
      regs := regs, clk := t.clk, engClk := t.clk }
    State.spawnLanes { s with nextId := s.nextId + 1, threads := s.threads ++ [x] } t c regs pc (l + 1) n

/-- The crew of a SPAWN is made (R389). -/
def State.makeCrew (s : State) (t : Thread) (pc : Word) (w : Nat) : State × Crew :=
  let regs := s.spawnRegs t
  let (s, c) := s.newCrew t.core t.member w none
  let s := s.modCrew c.cid fun x => { x with held := true }
  (s.spawnLanes t c regs pc 0 w, c)

/-- The refusal of a SPAWN: the first of 2, 0, 1 that applies (R389). -/
def State.spawnRefusal (s : State) (m : Member) (w : Nat) : Option Word :=
  if s.marked m.part m.job (dieOf m.core) then some 2
  else if !s.canMakeCrew m then some 0
  else if s.poolFree m < w then some 1
  else none

/-- A width config is valid: 1 to 64 in bits 6:0, the rest zero (R389). -/
def widthOk (c : Word) : Bool := c.extractLsb' 7 25 == 0 && decide (1 ≤ c.toNat) && decide (c.toNat ≤ 64)

/-- R389: SPAWN; what happens before it is performed first (R366). -/
def execSpawn (d a b : Name) (s : State) : Host.Outcome State Fault Refusal :=
  issueWord (.spawn d a b) s fun s t =>
    let c := s.name t b
    if !widthOk c then s.trap t.uid 0x144 (c.setWidth 64)
    else if !s.caughtUp t then s
    else match s.member? t.member with
      | none => s
      | some m =>
        match s.spawnRefusal m c.toNat with
        | some r => s.result t d r
        | none =>
          let (s', x) := s.makeCrew { t with clk := s.clkOf t.uid } (s.name t a) c.toNat
          s'.result t d x.idWord

/-! ## Counters and cancels (R391 to R393) -/

/-- R391: JNEW. -/
def execJnew (d a : Name) (s : State) : Host.Outcome State Fault Refusal :=
  issueWord (.jnew d a) s fun s t =>
    let v := s.name t a
    if v.getLsbD 31 then s.trap t.uid 0x146 (v.setWidth 64)
    else match s.member? t.member with
      | none => s
      | some m =>
        match s.newCounter m.part (dieOf t.core) v.toNat (some m.job) with
        | none => s.result t d noHandle
        | some (s', h) => s'.result t d h

/-- A request leaves for the yard; the thread waits for its reply (R392). -/
def State.sendYard (s : State) (t : Thread) (op : FlightOp) (dst : List Slot) : State :=
  let (s, id) := (s.tick t.uid (agentA t.uid)).launchFlight t (agentA t.uid) op dst
  s.setWait t.uid (.reply id)

/-- R392: JDEC. -/
def execJdec (d a b : Name) (s : State) : Host.Outcome State Fault Refusal :=
  issueWord (.jdec d a b) s fun s t =>
    let n := s.name t b
    if n.getLsbD 31 then s.trap t.uid 0x146 (n.setWidth 64)
    else if !s.caughtUp t then s
    else s.sendYard t (.jdec (s.name t a) n.toNat) [s.slotOf t d]

/-- R393: YCANCEL; an id of 0 names the issuer's own job. -/
def execYcancel (d a : Name) (s : State) : Host.Outcome State Fault Refusal :=
  issueWord (.ycancel d a) s fun s t =>
    match s.member? t.member with
    | none => s
    | some m =>
      let id := s.pair t a
      let job := if id = 0 then m.job else id
      let s := s.modPart m.part fun p =>
        { p with jobs := if p.jobs.contains job then p.jobs else p.jobs ++ [job] }
      let c : CancelReq := ⟨m.part, job, none, some s.nextId, 0, [0, 1, 2, 3]⟩
      { s with cancels := s.cancels ++ [c] }.sendYard t (.ycancel job) [s.slotOf t d]

/-! ## YPUT (R390) -/

/-- A handle that YPUT may name: none, or a live counter of the partition (R59, R390). -/
def State.handleLive (s : State) (part : Nat) (h : Word) : Bool := h == noHandle || (s.counter? part h).isSome

/-- The pieces of an args block (R390). -/
def argsPieces (off : Word) : List Piece :=
  (List.range 16).map fun i => ⟨localBase + off.setWidth 64 + BitVec.ofNat 64 (4 * i), 4, false⟩

/-- The checks of YPUT before its args block (R390). -/
def State.yputCause (s : State) (m : Member) (gate done count : Word) : Option (Nat × DWord) :=
  if count.toNat = 0 ∨ 256 < count.toNat then some (0x145, count.setWidth 64)
  else if !s.handleLive m.part gate then some (0x141, gate.setWidth 64)
  else if !s.handleLive m.part done then some (0x141, done.setWidth 64)
  else none

/-- Reads the args block as path T loads of the thread (R390). -/
def State.readArgs (s : State) (t : Thread) (ps : List Piece) : State × List Word :=
  match ps with
  | [] => (s, [])
  | p :: rest =>
    match s.checkPiece t.member p with
    | .pass l _ =>
      let (s, v) := s.readNow t.uid l 4
      let (s, more) := State.readArgs s t rest
      (s, BitVec.ofNat 32 v :: more)
    | _ =>
      let (s, more) := State.readArgs s t rest
      (s, 0 :: more)

/-- The checks of an args block (R202, R390). -/
def State.argsCheck (s : State) (m : Member) (off : Word) : RowCheck :=
  if off = noHandle then .ok
  else if 2 ^ 24 ≤ off.toNat then .fail 0x080 (localBase + off.setWidth 64)
  else if off.toNat % 4 ≠ 0 then .fail 0x081 (localBase + off.setWidth 64)
  else s.checkPieces m.id (argsPieces off)

/-- The request of a YPUT leaves, with the args it has read (R390). -/
def State.sendYput (s : State) (t : Thread) (template gate done off count : Word) (dst : List Slot) : State :=
  if off = noHandle then s.sendYard t (.yput template.toNat gate done none count.toNat) dst
  else
    let (s, ws) := s.readArgs t (argsPieces off)
    s.sendYard t (.yput template.toNat gate done (some ws) count.toNat) dst

/-- R390: YPUT. -/
def execYput (d a b : Name) (s : State) : Host.Outcome State Fault Refusal :=
  issueWord (.yput d a b) s fun s t =>
    match s.member? t.member with
    | none => s
    | some m =>
      let gate := s.name t b
      let done := s.name t (nameAt b 1)
      let off := s.name t (nameAt b 2)
      let count := s.name t (nameAt b 3)
      match s.yputCause m gate done count with
      | some (c, x) => s.trap t.uid c x
      | none =>
        match s.argsCheck m off with
        | .fail c x => s.trap t.uid c x
        | .wait w => if s.allDone (t.fenced .t) then s.waitOnFor m.part t w else s
        | .ok =>
          if !s.caughtUp t then s
          else s.sendYput t (s.name t a) gate done off count (s.pairSlots t d)

/-- The template of a YPUT with what the instruction gives it (R390). -/
def yputDesc (d : LaunchRec) (gate done : Word) (args : Option (List Word)) (count : Nat) : LaunchRec :=
  { d with
    gate := gate
    done := if done = noHandle then d.done else done
    args := args.getD d.args
    members := count }

/-- A YPUT's members are posted, or its status (R390), 5 where a scratch image leaves the template's scratchpad (R13)
(DESIGN CHOICE 84). -/
def State.postYput (s : State) (m : Member) (v : Version) (container : Nat) (mask : Word) (template : Nat)
    (gate done : Word) (args : Option (List Word)) (count : Nat) (clk : Clock) : State × Nat :=
  if s.marked m.part m.job (dieOf m.core) then (s, 1)
  else match v.templates[template]? with
    | none => (s, 3)
    | some d =>
      let d := yputDesc d gate done args count
      let (s', sched) := s.readSchedule m.part d
      if d.over container || v.imageOver d || sched == .over then (s', 5)
      else if d.flags.testBit 0 && mask.getLsbD 0 then (s', 6)
      else match sched with
        | .entries l =>
          if !d.operandsIn (s.rangesOf m.part) then (s', 4)
          else
            let p : Posting := ⟨d, m.part, m.job, m.acct, m.prio, m.container, m.version, m.ep, true,
              some (dieOf m.core), l, clk⟩
            match s'.post p with
            | none => (s', 2)
            | some s'' => (s'', 0)
        | _ => (s', 4)

/-- The feature mask of a partition (R46). -/
def State.partMask (s : State) (part : Nat) : Word := ((s.part? part).map (·.cfg.mask)).getD 0

/-- The id of the first entry that a posting added. -/
def State.firstNew (old new : State) : Nat :=
  ((new.members.drop old.members.length).head?.map (·.id)).getD 0

/-- YPUT_REQUEST (R390): the request named by the input reaches the issuing core's section. -/
def execYputRequest (s : State) : Host.Outcome State Fault Refusal :=
  match s.input with
  | .id i =>
    match s.flight? i with
    | none => .next s
    | some f =>
      match f.op, s.member? f.member with
      | .yput template gate done args count, some m =>
        if f.applied || !s.clear f then .next s
        else match s.container? m.container, s.versionOf m with
          | some c, some v =>
            let (s', k) := s.postYput m v c.cls (s.partMask m.part) template gate done args count f.clk
            let first : Word := if k = 0 then BitVec.ofNat 32 (State.firstNew s s') else 0xFFFFFFFF
            .next (s'.modFlight i fun g => { g with applied := true, reply := [BitVec.ofNat 32 k, first] })
          | _, _ => .next s
      | _, _ => .next s
  | _ => .next s

/-! ## Cancel marks (R79 to R81) -/

/-- A mark stops a member that is on a core. -/
def Member.markStop (m : Member) (now : DWord) : Member :=
  match m.st with
  | .running => { m with stop := .cancel, stopAt := now }
  | .suspended => { m with stop := .cancel, stopAt := now }
  | _ => m

/-- A mark reaches a member: it is neither ended, moving nor stopping for good. -/
def Member.markReaches (m : Member) : Bool :=
  match m.st with
  | .done => false
  | .cancelled => false
  | .moving _ => false
  | _ => m.stop == .none || m.stop.yields

/-- A section's members of a job are cancelled one by one (R63, R79, R81). -/
def State.markMembers (s : State) (ms : List Member) : State :=
  match ms with
  | [] => s
  | m :: rest =>
    State.markMembers (if m.holdsEntry then s.cancelEntry m.id else s.modMember m.id fun x => x.markStop s.clock) rest

/-- A section applies a job's mark in one step (R79): the state, and how many members it cancelled; entries
that are cancelled later, on their arrival, are not counted (DESIGN CHOICE 64). -/
def State.applyMark (s : State) (part : Nat) (job : DWord) (sect : Nat) : State × Nat :=
  let ms := s.members.filter fun m => m.part == part && m.job == job && m.sect == sect && m.markReaches
  let mark : CancelMark := ⟨part, job, sect⟩
  let s := { s with marks := if s.marks.contains mark then s.marks else s.marks ++ [mark] }
  ((s.markMembers ms).settleOrder.freeCounters, ms.length)

/-- The cancel that has reached all four sections is answered (R79). -/
def State.answerCancel (s : State) (c : CancelReq) : State :=
  let s := match c.request with
    | some h => s.reply h 0 (.number c.count)
    | none => s
  match c.flight with
  | some f => s.modFlight f fun g => { g with applied := true, reply := [BitVec.ofNat 32 c.count] }
  | none => s

/-- CANCEL_MARK (R79): the section named by the input applies the first cancel of the job it has not
applied yet, though a PARTCFG has cleared the marks of the others since (DESIGN CHOICE 101). -/
def execCancelMark (s : State) : Host.Outcome State Fault Refusal :=
  match s.input with
  | .mark part job sect =>
    let waits (c : CancelReq) : Bool := c.part == part && c.job == job && c.left.contains sect
    match s.cancels.find? waits with
    | none => .next s
    | some c =>
      let others := s.cancels.takeWhile (fun x => !waits x)
      let after := (s.cancels.dropWhile fun x => !waits x).drop 1
      let (s, n) := s.applyMark part job sect
      let c := { c with count := c.count + n, left := c.left.filter fun x => x != sect }
      if c.left.isEmpty then .next ({ s with cancels := others ++ after }.answerCancel c)
      else .next { s with cancels := others ++ c :: after }
  | _ => .next s

end Sys2Proof.Machine
end

