-- ==== Sys2Proof/Machine/Ready.lean ====
section
/-! DEFINITION. Which threads are ready (spec/06_issue.md R122): issue slots and pending asynchronous causes
(spec/20_interruptions.md R419), the cores' clock gates (spec/03_placed.md R82, R83), and the passing of
time (R3, R175). -/
namespace Sys2Proof.Machine

open Sys2Proof

/-! ## Ready threads (R122) -/

/-- A word enters the matrix queue (R278). -/
def isQueued (i : Instr) : Bool :=
  match i with
  | .mld _ _ _ => true
  | .mst _ _ _ => true
  | .mma _ _ => true
  | .mzero => true
  | .shiftout _ => true
  | .shiftin _ => true
  | .accclr _ => true
  | .drainqBf16 _ _ _ => true
  | .drainqE4m3 _ _ _ => true
  | .drainqE5m2 _ _ _ => true
  | .drainqE2m1 _ _ _ => true
  | _ => false

/-- A word issues jointly for the threads of its crew (R269, R276, R347). -/
def isJoint (i : Instr) : Bool :=
  match i with
  | .shfl _ _ _ => true
  | .slideDn _ _ _ _ => true
  | .slideUp _ _ _ _ => true
  | .xred _ _ _ => true
  | .xscan _ _ _ => true
  | .mcfg _ _ _ => true
  | .mrdc _ _ => true
  | .macq _ => true
  | .mrel => true
  | .skset _ _ => true
  | .sieve _ _ => true
  | i => isQueued i

/-- What a word needs besides its operands before it issues: an entry of its queue, the stage lockstep, or
the results due to the lane (R183, R187, R278, R297, R347). -/
def State.roomReady (s : State) (t : Thread) (i : Instr) : Bool :=
  match i with
  | .exit => s.laneLanded t
  | .sguard g _ => s.stageOpen t g
  | .cpy _ _ _ => s.entryReady i t
  | .cpym _ _ _ => s.entryReady i t
  | .cpyaOut _ _ _ => s.entryReady i t
  | .cpyaIn _ _ _ => s.entryReady i t
  | .cpynPut _ _ _ => s.entryReady i t
  | .cpynGet _ _ _ => s.entryReady i t
  | .skset _ _ => s.sqRoom t
  | .sieve _ _ => s.sqRoom t
  | i => !isQueued i || s.mqRoom t

/-- The word at a thread's PC would issue, or trap at its checks. -/
def State.wordReady (s : State) (t : Thread) : Bool :=
  match (s.fetchWord t).map decode with
  | some (.ok i) =>
    (s.issueCause t i).isSome ||
      (!s.operandsWait t i && (!isJoint i || s.jointReady t i) && s.roomReady t i)
  | _ => true

/-- A word that has issued and waits can go on: the barrier has flipped, or the ring's slot is there (R310,
R324). -/
def State.wordOpen (s : State) (t : Thread) : Bool :=
  match (s.fetchWord t).map decode, s.member? t.member with
  | some (.ok (.bwait _ a b)), some m =>
    match s.barrierLoc m (s.addrPair t a) with
    | .ok l => s.meetsError l 16 || (s.barrierAt l).phase != (s.name t b).getLsbD 0
    | .error _ => true
  | some (.ok (.ringpushClaim _ a)), some m => (m.ring? a.toNat).all Ring.canClaim
  | some (.ok (.ringpopTake _ a)), some m => (m.ring? a.toNat).all Ring.canTake
  | _, _ => true

/-- A thread is ready but for its core's clocks: it waits for nothing that has not come (R122, R129). -/
def State.isReady (s : State) (t : Thread) : Bool :=
  (s.member? t.member).any Member.goesOn && match t.wait with
    | .none => (t.join != some t.pc || s.labelMet t) && s.wordReady t
    | .held _ => s.labelMet t && s.wordReady t
    | .covered _ _ _ => s.wordReady t
    | .word => s.wordOpen t
    | _ => false

/-- A thread has a cause to take before its next word (R419). -/
def Thread.mustTake (t : Thread) : Bool :=
  t.takesFirst && t.wait.beforeWord

/-! ## Waking and gating (R82, R83) -/

/-- The bucket of a latency (R480). -/
def bucketOf (cycles : Nat) : Nat :=
  if cycles < 2 ^ 7 then 0 else if 2 ^ 21 ≤ cycles then 15 else Nat.log2 cycles - 6

/-- A ready thread stands on a core. -/
def State.coreReady (s : State) (core : Nat) : Bool := s.threads.any fun t => t.core == core && s.isReady t

/-- The gated cores among some on which a thread has become ready wake (R83). -/
def State.wakeReady (s : State) (cs : List Core) : State :=
  match cs with
  | [] => s
  | c :: rest => State.wakeReady (if c.gated && s.coreReady c.id then s.wakeCore c.id else s) rest

/-- A core is in use: a thread of it is ready, or a resume to it is in progress (R82). -/
def State.coreBusy (s : State) (core : Nat) : Bool :=
  s.coreReady core || s.members.any fun m => m.core == core && m.st == .running && m.divert.isSome

/-- The cores among some that are in use were active until now (R82). -/
def State.noteActive (s : State) (cs : List Core) : State :=
  match cs with
  | [] => s
  | c :: rest =>
    let now := s.clock
    State.noteActive (if s.coreBusy c.id then s.modCore c.id fun x => { x with lastActive := now } else s) rest

/-- The clock goes on by some cycles; it never wraps, so no later read of it is smaller (R175). -/
def later (now : DWord) (n : Nat) : DWord := now + BitVec.ofNat 64 (Nat.min n (2 ^ 64 - 1 - now.toNat))

/-- Time passes by a free number of cycles (R3, R175); a thread that has become ready wakes its core, and a
core is active while it is in use (R82, R83) (DESIGN CHOICE 3). -/
def State.elapse (s : State) : State :=
  let s := s.wakeReady s.cores
  let s := { s with clock := later s.clock (Config.elapsed s.fresh), fresh := s.fresh + 1 }
  s.noteActive s.cores

/-- CORE_CLOCK_GATE (R82): no thread of the core named by the input has been ready for 32 cycles, and no
dispatch, re-dispatch or resume to it has been in progress. -/
def execCoreClockGate (s : State) : Host.Outcome State Fault Refusal :=
  match s.input with
  | .id c =>
    let k := s.core c
    if !s.coreBusy c && !k.gated && decide (k.lastActive.toNat + 32 ≤ s.clock.toNat) then
      .next (s.modCore c fun x => { x with gated := true, wakeAt := none })
    else .next s
  | _ => .next s

/-- CORE_WAKE (R83): a thread of the gated core named by the input has become ready. -/
def execCoreWake (s : State) : Host.Outcome State Fault Refusal :=
  match s.input with
  | .id c => .next (if s.coreReady c then s.wakeCore c else s)
  | _ => .next s

/-- WAKE_END (R83): the wake of the core named by the input ends, and its clocks run. -/
def execWakeEnd (s : State) : Host.Outcome State Fault Refusal :=
  match s.input with
  | .id c =>
    match (s.core c).wakeAt with
    | none => .next s
    | some w =>
      if s.clock < w ∨ ¬(s.core c).gated then .next s
      else .next (s.modCore c fun x => { x with gated := false, lastActive := s.clock })
  | _ => .next s

/-- Counts wakes whose core first issues now: the latency of each since its waking event (R480). -/
def countWakes (now : DWord) (counts : List (Nat × Nat)) (events : List DWord) : List (Nat × Nat) :=
  events.foldl (fun m e => countUp m (bucketOf (now.toNat - e.toNat)) 1) counts

/-- The first issue on a core after its wakes: each is recorded, one after which the core gated again before it issued
among them (R83, R480). -/
def State.firstIssue (s : State) (t : Thread) : State :=
  match (s.core t.core).woken with
  | [] => s
  | e :: rest =>
    if s.isReady t then
      let life := s.nym.life
      { s with nym := { s.nym with life := { life with
        wake := countWakes s.clock life.wake (e :: rest) } } }.modCore t.core fun c => { c with wakeAt := none, woken := [] }
    else s

/-! ## Issue slots (R419) -/

/-- A thread that has come to a join label of its that is not met is held there (R129). -/
def State.holdAt (s : State) (t : Thread) : State :=
  if t.wait = .none ∧ t.join = some t.pc ∧ ¬s.labelMet t then s.setWait t.uid (.held s.clock) else s

/-- An issue slot is given to a thread: nothing happens while it may not issue or waits. A pending cause is
taken at a slot at which the thread would otherwise issue a word, unless it is in its handler; a thread that
would not, does nothing but come to its join label (R129, R419). -/
def State.issueSlot (s : State) (u : Nat) : Fetched :=
  match s.thread? u with
  | none => .settled s
  | some t =>
    if !s.mayIssue t || !t.wait.slotOpen then .settled s
    else if !t.mustTake then (s.firstIssue t).holdOrFetch t
    else if s.isReady t then .settled (s.trapPending u)
    else .settled (s.holdAt t)

/-- ASYNC_TRAP_TAKE (R419): the thread named by the input takes its first pending cause at the slot at
which it would issue a word. -/
def execAsyncTrapTake (s : State) : Host.Outcome State Fault Refusal :=
  match s.input with
  | .id u =>
    match s.thread? u with
    | none => .next s
    | some t => if s.mayIssue t && t.mustTake && s.isReady t then .next (s.trapPending u) else .next s
  | _ => .next s

end Sys2Proof.Machine
end

