-- ==== Sys2Proof/Machine/Placing.lean ====
section
/-! DEFINITION. Dispatch, phase boundaries, parking and re-dispatch (spec/03_placed.md R66 to R71,
spec/16_memory_model.md R359), the run limit (R76) and migration (R77, R78). -/
namespace Sys2Proof.Machine

open Sys2Proof

/-! ## Charging slots -/

/-- Bills a member's thread slots since they were last billed, in units of 1/2048 of a core (R47)
(DESIGN CHOICE 44). -/
def State.bill (s : State) (m : Nat) : State :=
  match s.member? m with
  | none => s
  | some x =>
    let unit := 2048 / (totals x.desc.coreClass).slots
    let n := (s.clock - x.billed).toNat * (x.desc.width + x.desc.spslots) * unit
    let s := s.modMember m fun y => { y with billed := s.clock }
    if x.resident then s.modAcct x.acct fun a => { a with charge := a.charge + n } else s

/-! ## Dispatch (R66, R71) -/

/-- The pool of a member's thread slots on a core: the lowest free ones (R66, R121) (DESIGN CHOICE 76). -/
def State.newPool (s : State) (m : Member) (core : Nat) : List Nat :=
  (s.spareTids core).take (m.desc.width + m.desc.spslots)

/-- A member receives its resources on a core (R66 step 1): its slots, its tags, and the array's cells at zero
when it uses the array (R275). -/
def State.allocate (s : State) (m : Member) (core : Nat) : State :=
  let pool := s.newPool m core
  let s := (s.takeTags m (dieOf core)).modMember m.id fun x => { x with
    st := .running, onCore := true, core := core, tids := pool, order := s.nextId, runSince := s.clock,
    billed := s.clock, pinned := false, skips := 0, firstSince := none, phase := none }
  let s := { s with nextId := s.nextId + 1 }.modCore core fun c =>
    if m.desc.flags.testBit 0 then { c with cells := [], owner := none, lastActive := s.clock }
    else { c with lastActive := s.clock }
  s.wakeCore core

/-- The scratch images of a member's function in its scratchpad, zeros elsewhere (R13, R66). -/
def State.imageOf (s : State) (m : Member) : Memory :=
  match s.versionOf m with
  | none => []
  | some v => (v.imagesOf m.desc.function).foldl (fun mem i => mem.put i.1 i.2) []

/-- The entry of a member: the record's, or its function's chosen entry (R27, R50). -/
def State.entryOf (s : State) (m : Member) : Word :=
  if m.desc.entry ≠ 0xFFFFFFFF then m.desc.entry
  else (((s.versionOf m).bind fun v => v.funcs.find? fun f => f.id == m.desc.function).map (·.entry)).getD 0

/-- v1 to v16 of the first crew's threads (R66 step 4). -/
def argRegs (args : List Word) : Map 32 :=
  (List.range 16).foldl (fun m i => Map.set m (i + 1) (args.getD i 0)) []

/-- Threads of a first crew, from lane `l` on (R66). -/
def State.firstLanes (s : State) (m : Member) (core : Nat) (c : Crew) (regs : Map 32) (pc : Word)
    (l n : Nat) : State :=
  match n with
  | 0 => s
  | n + 1 =>
    let x : Thread := { freshThread s.nextId (s.freeTid m.id) core m.id c.cid l pc with
      regs := regs, clk := m.clk, engClk := m.clk }
    State.firstLanes { s with nextId := s.nextId + 1, threads := s.threads ++ [x] } m core c regs pc (l + 1) n

/-- Dispatch of a new member (R66) (DEDUCED 31). -/
def State.dispatch (s : State) (m : Member) (core : Nat) : State :=
  let image := s.imageOf m
  let pc := s.entryOf m
  let s := (s.allocate m core).modMember m.id fun x => { x with
    scratch := image
    mask := s.partMask m.part
    schedCtr := if m.sched.isEmpty then 0 else 1 }
  let (s, c) := s.newCrew core m.id m.desc.width none
  let s := s.modCrew c.cid fun x => { x with held := true }
  s.firstLanes m core c (argRegs m.desc.args) pc 0 m.desc.width

/-- The registers of a restored lane (R71). -/
def laneRegs (p : PhaseLane) : Map 32 := p.names.foldl (fun m n => Map.set m (16 * p.wb + n.1) n.2) []

/-- The lanes of a phase record are restored (R71). -/
def State.restoreLanes (s : State) (m : Member) (core : Nat) (c : Crew) (pc : Word) (ps : List PhaseLane) : State :=
  match ps with
  | [] => s
  | p :: rest =>
    let x : Thread := { freshThread s.nextId (s.freeTid m.id) core m.id c.cid p.lane pc with
      regs := laneRegs p, preds := p.preds, wb := p.wb, clk := m.clk, engClk := m.clk }
    State.restoreLanes { s with nextId := s.nextId + 1, threads := s.threads ++ [x] } m core c pc rest

/-- Re-dispatch of a phase record (R71). -/
def State.redispatch (s : State) (m : Member) (r : PhaseRec) (core : Nat) : State :=
  let s := s.allocate m core
  let (s, c) := s.newCrew core m.id r.width none
  let s := s.modCrew c.cid fun x => { x with held := true }
  s.restoreLanes m core c r.pc r.lanes

/-- The next fitting entry of the section, partition and class that the input names, when it is of the
event's kind, is given its core (R66, R67). -/
def dispatchEvent (s : State) (go : Member → Nat → Option State) : Host.Outcome State Fault Refusal :=
  match s.input with
  | .sect sect part cls =>
    match s.pick sect [] (s.pool sect part cls) with
    | none => .next s
    | some (m, core, passed) =>
      match go m core with
      | none => .next s
      | some s => .next (s.skip passed).settleOrder
  | _ => .next s

/-- DISPATCH (R66): the next fitting entry is a new member. -/
def execDispatch (s : State) : Host.Outcome State Fault Refusal :=
  dispatchEvent s fun m core => if m.st = .ready then some (s.dispatch m core) else none

/-- REDISPATCH (R71): the next fitting entry is a phase record. -/
def execRedispatch (s : State) : Host.Outcome State Fault Refusal :=
  dispatchEvent s fun m core =>
    match m.st, m.phase with
    | .parked, some r => some (s.redispatch m r core)
    | _, _ => none

/-! ## Phase boundaries (R68, R359, R375) -/

/-- A thread waits for its crew's publication. -/
def Thread.publishes (t : Thread) : Bool :=
  match t.wait with
  | .publish _ => true
  | _ => false

/-- Both conditions of R359 hold for a crew: the path T writes of its threads, of those that have ended too,
are performed, and its commands have completed with their arrivals. -/
def State.published (s : State) (c : Crew) (ts : List Thread) : Bool :=
  !(s.flights.any fun f => !f.applied && f.op.writes && ((ts.any fun t => t.uid == f.owner) ||
    decide (Clock.get f.clk f.agent ≤ Clock.get c.did f.agent))) &&
  !(s.arrivals.any fun a => a.crew == c.cid) &&
  !(s.copies.any fun x => x.crew == c.cid) &&
  !((s.core c.core).mq.any fun q => q.crew == c.cid) && !((s.core c.core).sq.any fun q => q.crew == c.cid)

/-- Threads learn a clock. -/
def State.learnEach (s : State) (ts : List Thread) (c : Clock) : State :=
  { s with threads := updateIf s.threads (fun x => ts.any fun t => t.uid == x.uid) fun x => x.learn c }

/-- A copy in progress has moved rows into a member's scratchpad (R302). -/
def State.sendsTo (s : State) (m : Member) (c : Copy) : Bool :=
  c.started && match s.member? c.member with
  | none => false
  | some o => c.dests.any fun d =>
      match s.target o d.base 1 with
      | .ok (.scratch x _) => x.id == m.id
      | _ => false

/-- The names that a record carries for each thread, in ascending order (R52, R70). -/
def LaunchRec.carryNames (d : LaunchRec) : List Nat := (List.range 128).filter fun n => d.carry.getLsbD n

/-- The bytes of a phase record with some lanes (R53). -/
def Member.recordBytes (m : Member) (lanes : Nat) : Nat := 64 + lanes * (m.desc.carryNames.length + 1) * 4

/-- The class byte of a phase record (R70). -/
def Member.classByte (m : Member) : Nat := m.desc.cls % 2 + 2 * (m.prio % 4)
/-- The flags of a phase record (R70). -/
def Member.phaseFlags (m : Member) : Nat := (if m.moved then 1 else 0) + (if m.desc.flags.testBit 0 then 2 else 0)
/-- Lanes as a mask. -/
def PhaseRec.laneBits (r : PhaseRec) : Nat := (r.lanes.map fun l => 2 ^ l.lane).foldl (· + ·) 0

/-- The 64-byte header of a phase record (R70). -/
def Member.phaseHeader (m : Member) (r : PhaseRec) : List Byte :=
  leBytes 4 m.id ++ leBytes 4 m.version ++ leBytes 8 m.job.toNat ++ leBytes 2 m.acct ++ leBytes 1 m.classByte ++
    leBytes 1 r.width ++ leBytes 4 r.pc.toNat ++ leBytes 8 r.laneBits ++ leBytes 4 (m.used / 2 ^ 20) ++
    leBytes 2 m.desc.carryNames.length ++ leBytes 2 m.phaseFlags ++ leBytes 4 m.desc.done.toNat ++
    leBytes 4 m.skips ++ leBytes 8 m.desc.replytag.toNat ++ leBytes 8 0

/-- The carry block of a lane: its carried names, then its predicates and window base (R70). -/
def PhaseLane.block (p : PhaseLane) : List Byte :=
  (p.names.flatMap fun n => leBytes 4 n.2.toNat) ++ leBytes 4 (p.preds.toNat + 256 * (p.wb % 32))

/-- A phase record as it lies in the partition's yard area (R53, R70). -/
def Member.phaseImage (m : Member) : List Byte :=
  match m.phase with
  | none => []
  | some r => m.phaseHeader r ++ (sortBy (·.lane) r.lanes).flatMap PhaseLane.block

/-- The bytes of a member's phase record. -/
def Member.parkedBytes (m : Member) : Nat :=
  match m.phase with
  | none => 0
  | some r => m.recordBytes r.lanes.length

/-- The yard area of a partition has room for one more record (R53, R68). -/
def State.areaFits (s : State) (m : Member) (lanes : Nat) : Bool :=
  let used := ((s.members.filter fun x => x.part == m.part).map Member.parkedBytes).foldl (· + ·) 0
  decide (used + m.recordBytes lanes ≤ ((s.part? m.part).map fun p => areaUnits p.cfg).getD 0 * 2 ^ 21)

/-- The state in which a member's core resources are freed by a park. -/
def State.ifParked (s : State) (m : Member) : State :=
  ({ s with crews := s.crews.filter fun c => c.member != m.id }.modMember m.id fun x =>
    { x with st := .gated, onCore := false }).freeTags

/-- An entry that makes a member park (R68): it outranks it, fits its core once that is freed, and fits
no other core of the section. -/
def State.displaces (s : State) (m x : Member) : Bool :=
  x.isWaiting && x.part == m.part && x.sect == dieOf m.core && s.outranks x m &&
    (s.ifParked m).fits x m.core &&
    !((s.coresOn x.part x.desc.coreClass x.sect).any fun c => c != m.core && s.fits x c)

/-- A remote atomic: one whose home is not its own member's scratchpad (R68). -/
def Flight.remoteAtomic (f : Flight) : Bool :=
  match f.op with
  | .atomic l _ _ _ _ => l.space != f.member + 1
  | _ => false

/-- A member has nothing outstanding that keeps it in place (R68). -/
def State.quiet (s : State) (m : Member) (c : Crew) : Bool :=
  ((s.memberThreads m.id).all fun t => t.crew == c.cid) &&
  !((s.core m.core).mq.any fun q => q.member == m.id) &&
  !(s.copies.any fun x => x.member == m.id) && (m.sched.take m.schedCtr).all (·.complete) &&
  !(s.flights.any fun f => f.member == m.id && f.remoteAtomic) && !s.engineInbound m 0 m.scratchBytes &&
  !(s.copies.any fun c => s.sendsTo m c) && !(s.parts.any fun p => p.kv.windows.any fun w => w.member == m.id)

/-- The yard parks a member at its boundary; its record becomes an entry of the core's section (R57, R68). -/
def State.wantsPark (s : State) (m : Member) (c : Crew) (ts : List Thread) : Bool :=
  s.quiet m c && s.areaFits m ts.length && s.sectionFree (dieOf m.core) && s.members.any (s.displaces m)

/-- What write-back of a member's regions comes to: done, a page to wait for, or a line that fails. -/
inductive SaveEnd where
  | done
  | wait (page : Nat)
  | fail (addr : DWord)
  deriving DecidableEq, Repr

/-- Writes the dirty lines of regions back, up to the first that fails, one with an uncorrectable error in a sector
among them (R69 step 1) (DEDUCED 80). -/
def State.saveRegions (s : State) (agent : Nat) (clk : Clock) (m : Member) (rs : List Region) : State × SaveEnd :=
  match rs with
  | [] => (s, .done)
  | r :: rest =>
    match s.writeBack agent clk m.core 0xFFFF false m r r.marked with
    | (s, none) => State.saveRegions s agent clk m rest
    | (s, some (.page line page)) =>
      if s.pageInRanges m.part page then (s, .wait page) else (s, .fail (r.lineAddr line))
    | (s, some (.error line _)) => (s, .fail (r.lineAddr line))
    | (s, some (.line line)) => (s, .fail (r.lineAddr line))

/-- The carried names of a thread, read under its window; one beyond its allotment holds zero (R52, R70). -/
def Thread.carried (t : Thread) (m : Member) : List (Nat × Word) :=
  m.desc.carryNames.map fun n =>
    (n, if 16 * t.wb + n < 16 * m.desc.regs then Map.get t.regs (16 * t.wb + n) else 0)

/-- A lane of a phase record (R70). -/
def Thread.phaseLane (t : Thread) (m : Member) : PhaseLane :=
  ⟨t.lane, t.carried m, (t.preds &&& m.desc.carrypred) ||| 1, t.wb⟩

/-- What is known of the bytes and barriers of a member's scratchpad is forgotten with them. -/
def State.forgetScratch (s : State) (m : Nat) : State :=
  { s with
    barClks := s.barClks.filter fun x => x.loc.space != m + 1
    releases := s.releases.filter fun x => x.loc.space != m + 1
    shadow := s.shadow.filter fun x => x.loc.space != m + 1 }

/-- A member's threads, crews, frames and subscriptions end without a word (R69, R81). -/
def State.endMember (s : State) (m : Member) : State :=
  let mine (u : Nat) : Bool := (s.memberThreads m.id).any fun t => t.uid == u
  let drop (f : Flight) : Flight := { f with uids := f.uids.filter fun u => !mine u }
  let c := boundaryClock (s.memberThreads m.id)
  let s := { s with
    threads := s.threads.filter fun t => t.member != m.id
    crews := s.crews.filter fun c => c.member != m.id
    frames := s.frames.filter fun f => f.member != m.id
    flights := s.flights.map drop }
  let s := s.modMember m.id fun x => { x with did := Clock.join x.did c }
  s.settleOwner m.core

/-- A member without what it holds on a core (R69, R472). -/
def Member.bare (m : Member) : Member :=
  { m with
    scratch := []
    regions := []
    rings := []
    tcfg := []
    tband := []
    tiles := []
    accs := []
    query := []
    barriers := [] }

/-- The member parks (R69 steps 2 to 4): its record is made, with its issue cycles in units of 2^20 (R70,
R76), every core resource is released, and the record takes its place in dispatch order. -/
def State.park (s : State) (m : Member) (c : Crew) (ts : List Thread) (clk : Clock) : State :=
  let pc := (ts.head?.map (·.pc)).getD 0
  let rec1 : PhaseRec := ⟨pc + 1, c.width, ts.map fun t => t.phaseLane m⟩
  let s := (s.bill m.id).endMember m
  let s := s.endSubs (s.subs.filter fun x => x.member == m.id)
  let s := s.modMember m.id fun x => { (x.stopClock s.clock).bare with
    st := .parked
    onCore := false
    sect := dieOf m.core
    since := s.clock
    used := (x.stopClock s.clock).used / 2 ^ 20 * 2 ^ 20
    phase := some rec1
    stop := .none
    tids := []
    sched := x.sched.take x.schedCtr
    clk := Clock.join x.clk clk }
  ((s.forgetScratch m.id).freeTags).settleOrder

/-- The write-backs of an agent come before every later access through a region (R370). -/
def Region.after (r : Region) (agent : Nat) : Region := { r with clk := Clock.join r.clk [(agent, 1)] }

/-- A page that a write-back of a member's lines needs is waited for; what the agent of the write-back has written
happens before the member's next instruction and its end (R213, R365, R370). -/
def State.waitWriteBack (s : State) (m : Member) (agent page : Nat) : State :=
  (s.modMember m.id fun x => { x with
    clk := Clock.join x.clk [(agent, 1)], regions := x.regions.map fun r => r.after agent }).noteFault m.part page

/-- A boundary at which the yard parks the member: its own accesses and sieve commands have completed, its dirty lines are
written back, and it parks; a page that is not there yet is waited for, and a failing write-back abandons the park
(R69, R430). -/
def State.parkAt (s : State) (m : Member) (c : Crew) (ts : List Thread) (clk : Clock) : State :=
  if (s.flights.any fun f => f.member == m.id) || (s.core m.core).sq.any fun q => q.member == m.id then s
  else
    let agent := agentC s.nextId
    let clk := Clock.raise clk agent 1
    match { s with nextId := s.nextId + 1 }.saveRegions agent clk m m.regions with
    | (s, .done) => s.park m c ts clk
    | (s, .wait page) => s.waitWriteBack m agent page
    | (s, .fail a) =>
      let s := (s.learnEach ts clk).finishAll ts
      s.postLowest m.id ts ⟨0x08A, a, none, false⟩

/-- The lanes' destinations together. -/
def arriveSlots (ts : List Thread) : Option (List Slot) :=
  let each (t : Thread) : Option (List Slot) := match t.wait with
    | .publish (.arrive _ _ d _) => d
    | _ => none
  if (ts.all fun t => (each t).isSome) then some (ts.flatMap fun t => (each t).getD []) else none

/-- The lanes' destinations of a DFKEEP together. -/
def keepSlots (ts : List Thread) : List Slot :=
  ts.flatMap fun t => match t.wait with
    | .publish (.keep _ _ _ d) => d
    | _ => []

/-- What a crew's phase boundary publishes: the accesses of its threads, ended ones among them (R359). -/
def Crew.boundary (c : Crew) (ts : List Thread) : Clock := Clock.join c.did (boundaryClock ts)

/-- The same with the tiles that the crew's running subscriptions have moved, and the write-backs of a park that did
not come about (R359, R370). -/
def State.boundaryOf (s : State) (m : Member) (c : Crew) (ts : List Thread) : Clock :=
  (s.subs.filter fun x => x.crew == c.cid).foldl (fun k x => Clock.join k x.clk) (Clock.join (c.boundary ts) m.clk)

/-- A crew's publication is complete, and its word goes on (R375, R384, R405). -/
def State.boundary (s : State) (m : Member) (c : Crew) (ts : List Thread) (next : AfterPhase) : State :=
  let clk := s.boundaryOf m c ts
  match next with
  | .boundary => if s.wantsPark m c ts then s.parkAt m c ts clk else (s.learnEach ts clk).finishAll ts
  | .arrive tag count _ waits => (s.learnEach ts clk).sendTag ts m tag count (arriveSlots ts) waits true clk
  | .keep q w k _ => (s.learnEach ts clk).sendKeep ts q w k (keepSlots ts)

/-- PHASE_BOUNDARY (R375): the crew named by the input. -/
def execPhaseBoundary (s : State) : Host.Outcome State Fault Refusal :=
  match s.input with
  | .id i =>
    let ts := sortBy (·.lane) ((s.crewThreads i).filter Thread.publishes)
    match s.crew? i, ts with
    | some c, t :: _ =>
      match s.member? c.member, t.wait with
      | some m, .publish next =>
        if m.goesOn && s.published c ts then .next (s.boundary m c ts next) else .next s
      | _, _ => .next s
    | _, _ => .next s
  | _ => .next s

/-! ## The run limit (R76) -/

/-- RUN_LIMIT (R76): the member named by the input has run beyond its limit; its threads stop (DEDUCED 32). -/
def execRunLimit (s : State) : Host.Outcome State Fault Refusal :=
  match s.input with
  | .id i =>
    match s.member? i with
    | none => .next s
    | some m =>
      let ran := m.used + (s.clock - m.runSince).toNat
      if m.st = .running ∧ m.desc.runlimit ≠ 0 ∧ m.desc.runlimit * 2 ^ 20 < ran ∧
          (m.stop = .none ∨ m.stop.yields) then
        .next (s.modMember i fun x => { x with stop := .limit, stopAt := s.clock })
      else .next s
  | _ => .next s

/-! ## Migration (R77, R78) -/

/-- The free slots and units of a core. -/
def State.freeOf (s : State) (core : Nat) : Nat × Nat :=
  let t := totals (classOf core)
  let h := s.heldOn core 0
  (t.slots - h.slots, t.units - h.units)

/-- A section's advertisement for a partition and class: its core with the most free slots, then the most
free units (R77) (DEDUCED 38). -/
def State.advert (s : State) (sect part : Nat) (cls : CoreClass) : Option Advert :=
  let key (c : Nat) : Nat := 65536 * (2048 - (s.freeOf c).1) + (96 - (s.freeOf c).2)
  (minBy (s.coresOn part cls sect) key).map fun c => ⟨sect, part, cls, (s.freeOf c).1, (s.freeOf c).2⟩

/-- All advertisements of the four sections. -/
def State.allAdverts (s : State) : List Advert :=
  (List.range 4).flatMap fun d => s.parts.flatMap fun p =>
    [CoreClass.mcore, CoreClass.score].filterMap fun k => s.advert d p.id k

/-- SECTION_ADVERTISE (R77): every 4,096 cycles. -/
def execSectionAdvertise (s : State) : Host.Outcome State Fault Refusal :=
  if s.clock < s.advertAt then .next s
  else .next { s with adverts := s.allAdverts, advertAt := s.clock + 4096 }

/-- An advertised core fits an entry, by what the advertisement says (R78). -/
def Advert.takes (a : Advert) (m : Member) : Bool :=
  a.part == m.part && a.cls == m.desc.coreClass && decide (m.desc.width + m.desc.spslots ≤ a.slots) &&
    decide (m.desc.scratch ≤ a.units)

/-- An entry may move (R78). -/
def Member.mayMove (m : Member) : Bool := m.isWaiting && !m.pinned

/-- Entries are marked Moving and sent (R78). -/
def State.sendEntries (s : State) (src dst : Nat) (ms : List Member) : State :=
  let ids := ms.map (·.id)
  let move : Move := ⟨s.nextId, src, dst, ids, none⟩
  let s := { s with nextId := s.nextId + 1, moves := s.moves ++ [move] }
  let away (m : Member) : Member := { m with st := .moving (m.st == MState.parked) }
  { s with members := updateIf s.members (fun m => ids.contains m.id) away }.settleOrder

/-- MIGRATION_SEND (R78): the section, partition and class that the input names (DEDUCED 38); a Suspended first entry
lets those behind it move (DESIGN CHOICE 87). -/
def execMigrationSend (s : State) : Host.Outcome State Fault Refusal :=
  match s.input with
  | .sect sect part cls =>
    match s.pool sect part cls with
    | [] => .next s
    | m :: rest =>
      let late : Bool := m.firstSince.any fun t => decide (t.toNat + 8192 ≤ s.clock.toNat)
      match s.adverts.find? fun a => a.sect != sect && a.takes m with
      | none => .next s
      | some a =>
        let ms := ((m :: rest).filter fun x => x.mayMove && a.takes x).take 16
        if late && (s.choose m sect).isNone && !ms.isEmpty then .next (s.sendEntries sect a.sect ms)
        else .next s
  | _ => .next s

/-- The receiving section accepts an entry that fits a core of it; one of a job that it has marked it takes and
cancels there, whether or not it fits (R78, R79). -/
def State.acceptEntries (s : State) (dst : Nat) (ids taken : List Nat) : State × List Nat :=
  match ids with
  | [] => (s, taken)
  | i :: rest =>
    match s.member? i with
    | none => State.acceptEntries s dst rest taken
    | some m =>
      match m.st with
      | .moving was =>
        let x : Member := { m with sect := dst, st := if was then .parked else .ready, moved := true }
        if s.marked m.part m.job dst || ((s.choose x dst).isSome && s.sectionFree dst) then
          State.acceptEntries ((s.modMember i fun _ => x).arriveEntry x) dst rest (taken ++ [i])
        else State.acceptEntries s dst rest taken
      | _ => State.acceptEntries s dst rest taken

/-- MIGRATION_RECEIVE (R78): the message named by the input. -/
def execMigrationReceive (s : State) : Host.Outcome State Fault Refusal :=
  match s.input with
  | .id i =>
    match s.moves.find? fun x => x.id == i with
    | none => .next s
    | some x =>
      if x.accepted.isSome then .next s
      else
        let (s, taken) := s.acceptEntries x.dst x.members []
        .next { s with moves := updateIf s.moves (fun y => y.id == i) fun y => { y with accepted := some taken } }.settleOrder
  | _ => .next s

/-- A refused entry is the sender's again, in the state it held (R63, R78). -/
def State.restoreEntries (s : State) (ids : List Nat) : State :=
  match ids with
  | [] => s
  | i :: rest =>
    match s.member? i with
    | none => State.restoreEntries s rest
    | some m =>
      match m.st with
      | .moving was =>
        let x : Member := { m with st := if was then .parked else .ready }
        State.restoreEntries ((s.modMember i fun _ => x).arriveEntry x) rest
      | _ => State.restoreEntries s rest

/-- MIGRATION_REPLY (R78): the answered message named by the input. -/
def execMigrationReply (s : State) : Host.Outcome State Fault Refusal :=
  match s.input with
  | .id i =>
    match s.moves.find? fun x => x.id == i with
    | none => .next s
    | some x =>
      match x.accepted with
      | none => .next s
      | some taken =>
        let s := s.restoreEntries (x.members.filter fun m => !taken.contains m)
        .next { s with moves := s.moves.filter fun y => y.id != i }.settleOrder
  | _ => .next s

end Sys2Proof.Machine
end

