-- ==== Sys2Proof/Machine/Away.lean ====
section
/-! DEFINITION. Members that stop (spec/03_placed.md R74 to R76, R81): the choice of a victim, the save,
diversion and the resume (spec/20_interruptions.md R428 to R438), and the stop of a cancelled member. -/
namespace Sys2Proof.Machine

open Sys2Proof

/-! ## Diversion entries (R431, R432) -/

/-- The local offsets at which a member's regions begin, mapped ones and maximal runs of other units, in
ascending order (R431). -/
def Member.regionStarts (m : Member) : List Nat :=
  let mapped (u : Nat) : Bool := (m.regionAt (u * 65536)).isSome
  ((List.range m.desc.scratch).filter fun u =>
    (m.regions.any fun r => r.off == u * 65536) || (!mapped u && (u == 0 || mapped (u - 1)))).map (· * 65536)

/-- The diversion entries of a core (R431). -/
def divertTotal (core : Nat) : Nat := if isM core then 64 else 16

/-- The diversion entries that members hold on a core, from their stop to the end of their resume, or to the
release of their slots (R431, R471). -/
def State.divertHeld (s : State) (core : Nat) : Nat :=
  ((s.members.filter fun m => m.onCore && m.core == core && decide (m.retire < 6)).map fun m =>
    (m.divert.getD []).length).foldl (· + ·) 0

/-! ## The victim (R74) -/

/-- The state in which a member's release by a pre-emption has freed its core's resources. -/
def State.ifSuspended (s : State) (m : Member) : State := s.modMember m.id fun x => { x with st := .suspended }

/-- A member could give way to an entry (R74, R431). -/
def State.couldYield (s : State) (x y : Member) : Bool :=
  y.st == .running && y.stop == .none && y.divert.isNone && y.part == x.part &&
    y.desc.coreClass == x.desc.coreClass && dieOf y.core == x.sect && s.outranks x y &&
    decide (y.regionStarts.length + s.divertHeld y.core ≤ divertTotal y.core) && (s.ifSuspended y).fits x y.core

/-- Victim y is chosen before victim z: the lowest class, then the lowest deficit, then the most recently
dispatched (R74); a resume counts as a dispatch (DESIGN CHOICE 63). -/
def State.victimBefore (s : State) (y z : Member) : Bool :=
  if y.prio ≠ z.prio then decide (y.prio < z.prio)
  else if s.deficitAbove z.acct y.acct 0 then true
  else if s.deficitAbove y.acct z.acct 0 then false
  else decide (z.order < y.order)

/-- The victim among some members. -/
def State.victim (s : State) (ys : List Member) : Option Member :=
  ys.find? fun y => ys.all fun z => z.id == y.id || s.victimBefore y z

/-- A victim's crew stands at a phase boundary that meets R68. -/
def State.atBoundary (s : State) (m : Member) : Option (Crew × List Thread) :=
  match (s.memberCrews m.id).find? fun c => (s.crewThreads c.cid).any fun t => t.wait == .publish .boundary with
  | none => none
  | some c =>
    let ts := sortBy (·.lane) ((s.crewThreads c.cid).filter Thread.publishes)
    if s.published c ts && s.wantsPark m c ts then some (c, ts) else none

/-- The yard pre-empts a victim; one at a boundary parks instead (R74). -/
def State.preempt (s : State) (m : Member) : State :=
  match s.atBoundary m with
  | some (c, ts) => s.parkAt m c ts (s.boundaryOf m c ts)
  | none => s.modMember m.id fun x => { x with stop := .preempt, stopAt := s.clock }

/-- PREEMPT (R74): the first entry of the section, partition and class that the input names has waited
65,536 cycles and fits no core; while a victim is still stopping no other is chosen. -/
def execPreempt (s : State) : Host.Outcome State Fault Refusal :=
  match s.input with
  | .sect sect part cls =>
    match (s.pool sect part cls).head? with
    | none => .next s
    | some x =>
      let late : Bool := x.firstSince.any fun t => decide (t.toNat + 65536 ≤ s.clock.toNat)
      let stopping : Bool := s.members.any fun y => y.stop.yields && y.part == part &&
        y.desc.coreClass == cls && dieOf y.core == sect
      if !late || stopping || (s.choose x sect).isSome then .next s
      else match s.victim (s.members.filter (s.couldYield x)) with
        | none => .next s
        | some y => .next (s.preempt y)
  | _ => .next s

/-! ## The save (R428 to R430) -/

/-- A thread has stopped: its translating instruction, if it has one, has completed or trapped (R428). One that a
fence holds waits where it is. -/
def State.hasStopped (s : State) (t : Thread) : Bool :=
  match t.wait with
  | .walk (.flush _ _) => false
  | .walk _ => !s.allDone (t.fenced .t)
  | .fill _ _ _ => false
  | _ => true

/-- A line of a region is written back and becomes Invalid; one that fails stays Dirty (R429, R430): the
page to wait for, or the lines that fail, one with an uncorrectable error in a sector among them (DEDUCED 80). No thread makes
the write-back (DESIGN CHOICE 94). -/
def State.saveLines (s : State) (agent : Nat) (clk : Clock) (m : Member) (r : Region) (lines : List Nat)
    (failed : List DWord) : State × Except Nat (List DWord) :=
  match lines with
  | [] => (s, .ok failed)
  | l :: rest =>
    match s.writeBack agent clk m.core 0xFFFF true m r (r.marked.filter fun x => x.1 == l) with
    | (s, none) => State.saveLines (s.setLine m.id r.off l none) agent clk m r rest failed
    | (s, some (.page _ page)) =>
      if s.pageInRanges m.part page then (s, .error page)
      else State.saveLines s agent clk m r rest (failed ++ [r.lineAddr l])
    | (s, some _) => State.saveLines s agent clk m r rest (failed ++ [r.lineAddr l])

/-- The dirty lines of every region are written back (R429). -/
def State.saveAway (s : State) (agent : Nat) (clk : Clock) (m : Member) (rs : List Region) (failed : List DWord) :
    State × Except Nat (List DWord) :=
  match rs with
  | [] => (s, .ok failed)
  | r :: rest =>
    match s.saveLines agent clk m r ((r.marked.map (·.1)).eraseDups) failed with
    | (s, .error page) => (s, .error page)
    | (s, .ok failed) => State.saveAway s agent clk m rest failed

/-- Lines that are not Dirty become Invalid (R429) (DEDUCED 35). -/
def Region.onlyDirty (r : Region) : Region :=
  { r with lines := r.lines.filter fun l => match l.2 with
    | .dirty _ => true
    | _ => false }

/-- A fill of a line of the member is in progress. -/
def Member.isFilling (m : Member) : Bool := m.regions.any fun r => r.lines.any fun l => l.2.isFilling

/-- Nothing of the member is under way that would reach its core's cells, tiles or query slots, or a mapped
line in the scratchpad: its matrix commands have finished with what is saved, MST and DRAINQ but for the
reading of it, which the save does (R283, R429). -/
def State.drained (s : State) (m : Member) : Bool :=
  s.cellsDone m && !((s.core m.core).sq.any fun q => q.member == m.id) && !m.isFilling &&
  !(s.flights.any fun f => !f.applied && f.op.loc.any fun l => l.space == m.id + 1 && (m.regionAt l.off).isSome)

/-- Causes that a save raises for a thread: into the deferred-fault list while it has room, the rest recorded
under cause 0x183 (R430, R435). -/
def State.deferEach (s : State) (t : Thread) (lines : List DWord) : State :=
  match lines with
  | [] => s
  | a :: rest => State.deferEach (s.postCause t.uid ⟨0x08A, a, none, true⟩) t rest

/-- The failures of a save are deferred for the member's living thread of lowest `%tid`; with none they are
in its end status (R430, R435, R474). -/
def State.deferFailed (s : State) (m : Member) (failed : List DWord) : State :=
  match minBy ((s.memberThreads m.id).filter Thread.lives) (·.tid) with
  | some t => s.deferEach t failed
  | none => failed.foldl (fun s _ => s.recordFault m.id 0x08A) s

/-- The time from the stop to the saved state is counted (R480). -/
def State.countSave (s : State) (m : Member) : State :=
  let life := s.nym.life
  let n := (s.clock - m.stopAt).toNat
  { s with nym := { s.nym with life := { life with preempt := countUp life.preempt (bucketOf n) 1 } } }

/-- The member's state is saved and its regions start Diverting; its queued MST and DRAINQ have read what they
write (R283, R429, R431, R432) (DEDUCED 36). The write-backs of the save come before what its threads do
after the resume; nothing else is ordered (R371). -/
def State.suspend (s : State) (m : Member) (agent : Nat) (failed : List DWord) : State :=
  let s := s.captureAll m ((s.core m.core).mq.filter fun q => q.member == m.id)
  let k := s.core m.core
  let mine : Bool := k.owner.any fun c => (s.crew? c).any fun x => x.member == m.id
  let s := s.bill m.id
  let s := s.modMember m.id fun x => { x.stopClock s.clock with
    st := .suspended
    stop := .none
    since := s.clock
    sect := dieOf m.core
    regions := x.regions.map fun r => r.onlyDirty.after agent
    divert := some (x.regionStarts.map fun o => (o, .diverting))
    deferred := []
    savedCells := if m.desc.flags.testBit 0 then k.cells else []
    savedOwner := if mine then k.owner else none
    clk := Clock.join x.clk [(agent, 1)] }
  let s := s.modCore m.core fun c => if mine then { c with owner := none } else c
  ((s.countSave m).deferFailed m failed).settleOrder

/-- The threads of a member stop before the word of their next slot: one that has evaluated a live prefix stops
before it; pause windows close (R97, R428). -/
def State.noteStop (s : State) (i : Nat) : State :=
  { s with threads := updateIf s.threads (fun t => t.member == i) fun t => { t.uncover with pause := none } }.modMember i fun x =>
    { x with stop := .saving, stopAt := s.clock }

/-- MEMBER_STOP (R428, R429): once every thread of the pre-empted member named by the input has stopped, the
stop is noted; then its dirty lines are written back and it is saved, a page that is not there yet being waited
for. A member whose last thread has ended meanwhile is Done (R63, R424). -/
def execMemberStop (s : State) : Host.Outcome State Fault Refusal :=
  match s.input with
  | .id i =>
    match s.member? i with
    | none => .next s
    | some m =>
      if m.st ≠ .running then .next s
      else match m.stop with
      | .preempt =>
        if (s.memberThreads i).all s.hasStopped then .next (s.noteStop i) else .next s
      | .saving =>
        if !s.drained m then .next s
        else
          let agent := agentC s.nextId
          let clk := Clock.raise (Clock.join (boundaryClock (s.memberThreads i)) m.clk) agent 1
          match { s with nextId := s.nextId + 1 }.saveAway agent clk m m.regions [] with
          | (s, .error page) => .next (s.waitWriteBack m agent page)
          | (s, .ok failed) => .next (s.suspend m agent failed)
      | _ => .next s
  | _ => .next s

/-! ## The resume (R437, R438) -/

/-- A resumed member has a pool of slots again; each slot of the old one has the new one at its place (R75, R121)
(DEDUCED 34). -/
def State.retid (s : State) (m : Member) : State :=
  let pool := s.newPool m m.core
  let new (i : Nat) : Nat := (assoc (m.tids.zip pool) i).getD i
  { s with
    threads := updateIf s.threads (fun t => t.member == m.id) fun t => { t with tid := new t.tid }
    frames := updateIf s.frames (fun f => f.member == m.id) fun f => { f with slots := f.slots.map new } }.modMember
      m.id fun x => { x with tids := pool }

/-- Monitors of resumed threads are armed again while the core has free ones; each counts as a hit (R387,
R437 step 4). -/
def State.rearm (s : State) (core : Nat) (ts : List Thread) : State :=
  match ts with
  | [] => s
  | t :: rest =>
    let free := decide (s.armedOn core < monitorsOf core)
    let armed : Option Monitor := t.monitor.map fun k => { k with hit := true }
    State.rearm (s.modThread t.uid fun x => { x with monitor := if free then armed else none }) core rest

/-- The deferred causes are delivered in list order (R435, R437 step 5). -/
def State.deliverDeferred (s : State) (ds : List (Nat × Pending)) : State :=
  match ds with
  | [] => s
  | d :: rest => State.deliverDeferred (s.postCause d.1 { d.2 with deferred := true }) rest

/-- Every region is Direct: monitors, deferred causes, and the threads restart (R437 steps 4 to 6). Each of them
follows the write-backs of the save, and nothing else that it did not follow before (R371). A member whose last thread
ended while it was away is Done (R63, R424). -/
def State.restart (s : State) (m : Member) : State :=
  let ts := (s.memberThreads m.id).filter fun t => t.monitor.isSome
  let s := { s with threads := updateIf s.threads (fun t => t.member == m.id) fun t =>
    { t.learn m.clk with monitor := none } }
  let s := s.modMember m.id fun x => { x with divert := none, deferred := [] }
  ((s.rearm m.core ts).deliverDeferred m.deferred).doneIfEmpty m.id

/-- The first Diverting region becomes Restoring. -/
def restoreNext (l : List (Nat × Divert)) : List (Nat × Divert) :=
  match l with
  | [] => []
  | (o, .diverting) :: rest => (o, .restoring) :: rest
  | x :: rest => x :: restoreNext rest

/-- Resume on a member's own core (R437 steps 1 to 3): resources, cells and owner; the first region is
Restoring. Its place in the order of dispatches is renewed (R74) (DESIGN CHOICE 63). -/
def State.resume (s : State) (m : Member) : State :=
  let s := s.retid m
  let s := s.modMember m.id fun x => { x with
    st := .running
    order := s.nextId
    runSince := s.clock
    billed := s.clock
    pinned := false
    skips := 0
    firstSince := none
    divert := x.divert.map restoreNext
    savedCells := []
    savedOwner := none }
  let owner := m.savedOwner.filter fun c => (s.crew? c).isSome
  let s := { s with nextId := s.nextId + 1 }.modCore m.core fun c =>
    let c := { c with lastActive := s.clock }
    if m.desc.flags.testBit 0 then { c with cells := m.savedCells, owner := owner } else c
  let s := s.wakeCore m.core
  if (m.divert.getD []).isEmpty then s.restart m else s

/-- RESUME (R437): the next fitting entry of the section, partition and class is a Suspended member. -/
def execResume (s : State) : Host.Outcome State Fault Refusal :=
  dispatchEvent s fun m _ => if m.st = .suspended then some (s.resume m) else none

/-- The Restoring region becomes Direct and the next one Restoring (R437 step 3). -/
def directNext (l : List (Nat × Divert)) : List (Nat × Divert) :=
  match l with
  | [] => []
  | (o, .restoring) :: rest => (o, .direct) :: restoreNext rest
  | x :: rest => x :: directNext rest

/-- REGION_RESTORE (R438): the Restoring region of the member named by the input becomes Direct; what was
held for it goes on, and after the last region the threads restart. The image of an unmapped region is the
scratchpad's own bytes. -/
def execRegionRestore (s : State) : Host.Outcome State Fault Refusal :=
  match s.input with
  | .id i =>
    match s.member? i with
    | none => .next s
    | some m =>
      match m.divert with
      | none => .next s
      | some l =>
        if m.st ≠ .running ∨ ¬(l.any fun d => d.2 == .restoring) then .next s
        else
          let new := directNext l
          let s := s.modMember i fun x => { x with divert := some new }
          if new.all fun d => d.2 == .direct then .next (s.restart m) else .next s
  | _ => .next s

/-! ## The stop of a cancelled member (R76, R81, R434) -/

/-- The end code of a stop (R475). -/
def Stop.endCode (x : Stop) : Nat :=
  match x with
  | .limit => 2
  | _ => 1

/-- A Running member ends where its threads stand; nothing is saved (R81). -/
def State.cancelRunning (s : State) (m : Member) : State :=
  let s := s.endMember m
  (s.modMember m.id fun x => { x.stopClock s.clock with
    st := .cancelled
    stop := .none
    endCode := m.stop.endCode
    divert := none
    deferred := [] }).settleOrder

/-- A Suspended member ends where it stands: its save area and image are discarded, its subscriptions stop and
its regions are Released (R432, R434). -/
def State.cancelAway (s : State) (m : Member) : State :=
  let s := (s.endMember m).endSubs (s.subs.filter fun x => x.member == m.id)
  let s := s.modMember m.id fun x => { x.bare with
    st := .cancelled
    stop := .none
    endCode := m.stop.endCode
    divert := x.divert.map fun l => l.map fun d => (d.1, .released)
    deferred := []
    savedCells := []
    savedOwner := none }
  (s.forgetScratch m.id).settleOrder

/-- MEMBER_CANCEL_STOP (R81): the member named by the input stops for a cancel or its run limit. -/
def execMemberCancelStop (s : State) : Host.Outcome State Fault Refusal :=
  match s.input with
  | .id i =>
    match s.member? i with
    | none => .next s
    | some m =>
      if m.stop ≠ .cancel ∧ m.stop ≠ .limit then .next s
      else match m.st with
        | .suspended => .next (s.cancelAway m)
        | .running => if (s.memberThreads i).all s.hasStopped then .next (s.cancelRunning m) else .next s
        | _ => .next s
  | _ => .next s

end Sys2Proof.Machine
end

