-- ==== Sys2Proof/Machine/Retire.lean ====
section
/-! DEFINITION. Retirement, usage and what outlives a member (spec/24_retirement.md R471 to R480,
spec/02_launched.md R47, R48, spec/20_interruptions.md R439, R440), the references of code versions
(spec/01_described.md R22), and the loss of power. -/
namespace Sys2Proof.Machine

open Sys2Proof

/-! ## Code versions (R19, R22) -/

/-- The references a member holds to its version (R22): one for each crew while it is on its core, else
one. -/
def State.memberRefs (s : State) (m : Member) : Nat :=
  match m.st with
  | .running => Nat.max 1 (s.memberCrews m.id).length
  | .suspended => Nat.max 1 (s.memberCrews m.id).length
  | _ => 1

/-- The references of a version (R22). -/
def State.versionRefs (s : State) (handle : Word) (v : Nat) : Nat :=
  (s.queue.filter fun q => q.h.handle == handle && q.version == v).length +
    ((s.members.filter fun m => m.container == handle && m.version == v).map s.memberRefs).foldl (· + ·) 0

/-- A version that is not current is reclaimed without references (R22). -/
def State.reclaimIn (s : State) (c : Container) : Container :=
  { c with versions := c.versions.filter fun v => v.num == c.current || s.versionRefs c.handle v.num != 0 }

/-- Every version without references is reclaimed (R22). -/
def State.reclaim (s : State) : State := { s with containers := s.containers.map s.reclaimIn }

/-! ## The order of release (R471) -/

/-- A member has ended. -/
def Member.ended (m : Member) : Bool :=
  match m.st with
  | .done => true
  | .cancelled => true
  | _ => false

/-- Everything the member has issued is complete or applied, the fills of its maps and the decrements of its copies
among it (R302, R471 step 1). -/
def State.quiescent (s : State) (m : Member) : Bool :=
  !m.isFilling && !(s.copies.any fun c => c.member == m.id) && !(s.decs.any fun d => d.member == m.id) && (m.sched.take m.schedCtr).all (·.complete) &&
  !(s.cores.any fun c => (c.mq.any fun q => q.member == m.id) || (c.sq.any fun q => q.member == m.id)) &&
  !(s.flights.any fun f => f.member == m.id && !f.applied && match f.op with
    | .load _ _ _ => false
    | _ => true)

/-- A member's dry-fit windows are dropped (R407). -/
def KvUnit.dropWindowsOf (u : KvUnit) (m : Nat) : KvUnit :=
  (u.windows.filter fun w => w.member == m).foldl (fun u w => u.dropWindow w) u

/-- The array's owner ends with its member (R283). -/
def State.freeArray (s : State) (m : Member) : State :=
  let mine (c : Nat) : Bool := (s.crew? c).any fun x => x.member == m.id
  s.modCore m.core fun c => { c with owner := c.owner.filter fun o => !mine o }

/-- Steps 1 to 4 of R471: subscriptions stop after the tile in flight (R315), the window is dropped, matrix and sieve resources, rings and
maps are released; dirty sectors are discarded (R472). -/
def State.quiesce (s : State) (m : Member) : State :=
  let s := s.endSubs (s.subs.filter fun x => x.member == m.id)
  let s := s.modPart m.part fun p => { p with kv := p.kv.dropWindowsOf m.id }
  let s := if m.onCore then s.freeArray m else s
  let s := { s with crews := s.crews.filter fun c => c.member != m.id }
  s.modMember m.id fun x => { x with
    tcfg := []
    tband := []
    tiles := []
    accs := []
    query := []
    rings := []
    regions := []
    quiesced := true }

/-- MEMBER_QUIESCED (R471): the ended member named by the input. -/
def execMemberQuiesced (s : State) : Host.Outcome State Fault Refusal :=
  match s.input with
  | .id i =>
    match s.member? i with
    | none => .next s
    | some m => if m.ended && !m.quiesced && s.quiescent m then .next (s.quiesce m) else .next s
  | _ => .next s

/-- What a member and its commands have done (R365, R366). -/
def Member.allDid (m : Member) : Clock :=
  m.sched.foldl (fun c e => Clock.join c e.clk) (Clock.join m.clk m.did)

/-- The done counter is decremented (R471 step 7): the state, and whether it was. -/
def State.decrementDone (s : State) (m : Member) : State × Bool :=
  if m.st ≠ .done ∨ m.desc.done = noHandle then (s, false)
  else match s.applyDec m.part m.desc.done 1 m.allDid with
    | (s, .value _) => (s, true)
    | (s, .underflow) => (s.logUnderflow (handleSect m.desc.done) m.desc.done 3 m.job, false)
    | (s, .stale) => (s, false)

/-- The completion message of a member (R475). -/
def Member.completion (m : Member) : Completion where
  endCode := m.endCode
  byYput := m.byYput
  decremented := m.decremented
  member := m.id
  job := m.job
  replytag := m.desc.replytag
  index := m.index
  acct := m.acct
  nfault := m.nfault
  fault := m.fault1.getD 0xFFFF
  version := m.version
  issue := m.issue

/-- The flags of a completion message (R475). -/
def Completion.flags (c : Completion) : Nat := (if c.byYput then 1 else 0) + (if c.decremented then 2 else 0)

/-- The 48 bytes of a completion message (R475). -/
def Completion.bytes (c : Completion) : List Byte :=
  leBytes 1 0x81 ++ leBytes 1 1 ++ leBytes 1 c.endCode ++ leBytes 1 c.flags ++ leBytes 4 c.member ++
    leBytes 8 c.job.toNat ++ leBytes 8 c.replytag.toNat ++ leBytes 4 c.index ++ leBytes 2 c.acct ++
    leBytes 2 c.nfault ++ leBytes 2 c.fault ++ leBytes 2 0 ++ leBytes 4 c.version ++ leBytes 8 c.issue

/-- The scratchpad units that a member still has and nothing is on its way into (R302, R471 step 5). -/
def State.idleUnits (s : State) (m : Member) : List Nat :=
  (List.range m.desc.scratch).filter fun u =>
    !m.freed.contains u && !s.inbound m (u * 65536) 65536 && !(s.copies.any fun c => s.sendsTo m c)

/-- Step 6 of R471: the slots are released, after their last charge (R47). -/
def State.releaseSlots (s : State) (m : Member) : State :=
  ((s.bill m.id).modMember m.id fun x => { x with retire := 6, divert := none }).settleOrder

/-- Step 7 of R471: the done counter is decremented. -/
def State.retireCounter (s : State) (m : Member) : State :=
  let (s, dec) := s.decrementDone m
  s.modMember m.id fun x => { x with retire := 7, decremented := dec }

/-- Step 8 of R471: the completion message leaves, and tells of what the member did (R366). -/
def State.retireMessage (s : State) (m : Member) : State :=
  let s := (s.epLearns m.ep m.allDid).send [.done m.ep m.completion.bytes]
  let s := { s with nym := { s.nym with doneClk := Clock.join s.nym.doneClk m.allDid } }
  s.modMember m.id fun x => { x with retire := 8 }

/-- Step 9 of R471: the member's references and its entry are dropped. -/
def State.retireRefs (s : State) (m : Member) : State :=
  let s := { s with members := s.members.filter fun x => x.id != m.id }
  (((s.forgetScratch m.id).freeTags.freeCounters).reclaim).settleOrder

/-- The next of steps 5 to 9 of R471 for a member, each after the one before it has finished: units that nothing
is on its way into are released, then the slots, then the decrement and the message follow what the member did. -/
def State.release (s : State) (m : Member) : State :=
  if m.freed.length < m.desc.scratch then
    let us := s.idleUnits m
    (s.modMember m.id fun x => { x with freed := x.freed ++ us }).settleOrder
  else match m.retire with
    | 6 => if s.settled m.allDid then s.retireCounter m else s
    | 7 => s.retireMessage m
    | 8 => s.retireRefs m
    | _ => s.releaseSlots m

/-- RETIRE_RELEASE (R471): the next step for the quiesced member named by the input (DEDUCED 42). -/
def execRetireRelease (s : State) : Host.Outcome State Fault Refusal :=
  match s.input with
  | .id i =>
    match s.member? i with
    | none => .next s
    | some m => if m.quiesced then .next (s.release m) else .next s
  | _ => .next s

/-! ## Usage figures and deficits (R47, R48, R72) -/

/-- An account has queued or resident work (R48). -/
def State.acctBusy (s : State) (a : Nat) : Bool :=
  (s.queue.any fun q => q.h.acct == a) || s.members.any fun m => m.acct == a && !m.ended

/-- The accounts of a partition with queued or resident work. -/
def State.busyAccts (s : State) (part : Nat) : List Account :=
  s.accts.filter fun a => a.cfg.part == part && s.acctBusy a.id

/-- The deficit of an account now, as a fraction (R48) (DEDUCED 37). -/
def State.deficitNow (s : State) (a : Account) : Int × Nat :=
  let busy := s.busyAccts a.cfg.part
  let w := (busy.map (·.cfg.weight)).foldl (· + ·) 0
  let u := (busy.map (·.figure)).foldl (· + ·) 0
  if w = 0 then (-(a.figure : Int), 1)
  else ((a.cfg.weight * u : Nat) - (a.figure * w : Nat), w)

/-- An account with its deficit computed. -/
def State.withDeficit (s : State) (a : Account) : Account :=
  { a with
    deficit := (s.deficitNow a).1
    deficitDen := (s.deficitNow a).2 }

/-- Every account's deficit is computed (R72). -/
def State.setDeficits (s : State) : State := { s with accts := s.accts.map s.withDeficit }

/-- Cycles between two decays of a usage figure (R47). -/
def decayCycles : Nat := 1048576
/-- Cycles of a half-life in seconds (R47). -/
def halfLifeCycles (h : Nat) : Nat := h * 3600000000

/-- A figure lies within one unit of another times 2^(-2^20 / (h · 3.6 · 10^9)) (R47): with both sides raised
to the power of the half-life's cycles. -/
def decayNear (h u r : Nat) : Bool :=
  decide ((r - 1) ^ halfLifeCycles h * 2 ^ decayCycles ≤ u ^ halfLifeCycles h) &&
    decide (u ^ halfLifeCycles h ≤ (r + 1) ^ halfLifeCycles h * 2 ^ decayCycles)

/-- A usage figure after one interval's decay (R47): within one unit, 1/2048 of a cycle, of the product, whose
precision the manual does not give (DEDUCED 37). -/
def decayed (h u : Nat) : Nat :=
  if decayNear h u (Config.decay h u) then Config.decay h u
  else ((List.range (u + 1)).find? (decayNear h u)).getD u

/-- The usage figure decays and takes in the interval's charge (R47). -/
def Account.interval (halfLife : Nat) (a : Account) : Account :=
  { a with
    figure := decayed halfLife a.figure + a.charge
    charge := 0 }

/-- Bytes of a member's shadow image, which it has from its save to the end of its resume or its cancellation
(R429, R434, R437). -/
def Member.shadowBytes (m : Member) : Nat :=
  if m.divert.isSome && m.st != .cancelled then
    m.scratchBytes - (m.regions.map fun r => r.units * 65536).foldl (· + ·) 0
  else 0

/-- Scratchpad bytes, shadow image and phase record of a member (R476). -/
def Member.residentBytes (m : Member) : Nat :=
  (if m.resident then m.unitsLeft * 65536 else 0) + m.shadowBytes + m.parkedBytes

/-- Bills members and charges their byte-intervals (R47, R476). -/
def State.billEach (s : State) (ms : List Member) : State :=
  match ms with
  | [] => s
  | m :: rest =>
    State.billEach ((s.bill m.id).charge m.acct { Usage.zero with resident := m.residentBytes }) rest

/-- USAGE_INTERVAL (R47, R72): every 2^20 cycles. -/
def execUsageInterval (s : State) : Host.Outcome State Fault Refusal :=
  if s.clock < s.usageAt then .next s
  else
    let s := s.billEach s.members
    let s := { s with accts := s.accts.map (Account.interval s.nym.halfLife) }
    let s := { s with usageAt := s.clock + BitVec.ofNat 64 (2 ^ 20) }
    .next s.setDeficits.settleOrder

/-- The counters of every account and the lifetime records go to flash (R477, R480). -/
def State.writeUsage (s : State) : State :=
  { s with nym := { s.nym with
    flashUsage := s.accts.foldl (fun l a => assocSet l a.id a.usage) s.nym.flashUsage
    flashLife := s.nym.life } }

/-- USAGE_FLASH_WRITE (R477). -/
def execUsageFlashWrite (s : State) : Host.Outcome State Fault Refusal := .next s.writeUsage

/-! ## Snapshots (R439, R440) -/

/-- SNAPSHOT_NYMESQUE (R439): of the partition named by the input. -/
def execSnapshotNymesque (s : State) : Host.Outcome State Fault Refusal :=
  match s.input with
  | .id p => .next (s.snapshot p (s.snapHeader p 0 0 0xFFFF 0xFFFF 1)).1
  | _ => .next s

/-- SNAPSHOT_COLLECT (R440): the latched snapshot of the partition named by the input joins its newest
four. -/
def execSnapshotCollect (s : State) : Host.Outcome State Fault Refusal :=
  match s.input with
  | .id p =>
    .next (s.modPart p fun x => match x.latched with
      | none => x
      | some k => { x with latched := none, snaps := (x.snaps ++ [k]).drop (x.snaps.length - 3) })
  | _ => .next s

/-! ## Lifetime counters and the loss of power (R477, R480) -/

/-- Changes the lifetime counters. -/
def State.modLife (s : State) (f : Lifetime → Lifetime) : State := { s with nym := { s.nym with life := f s.nym.life } }

/-- The number of a link among the lifetime counters (R480). -/
def linkNumber (k : LinkKind) (i : Nat) : Option Nat :=
  match k with
  | .die => if i < 6 then some i else none
  | .ethernet => if i < 8 then some (6 + i) else none
  | .hbm => if i < 16 then some (14 + i) else none

/-- LINK_RETRAIN (R480): the link named by the input. -/
def execLinkRetrain (s : State) : Host.Outcome State Fault Refusal :=
  match s.input with
  | .link k i =>
    match linkNumber k i with
    | none => .next s
    | some n => .next (s.modLife fun l => { l with retrains := countUp l.retrains n 1 })
  | _ => .next s

/-- CORRECTABLE_ERROR (R480): in the stack and temperature band named by the input. -/
def execCorrectableError (s : State) : Host.Outcome State Fault Refusal :=
  match s.input with
  | .error stack band =>
    if stack < 16 ∧ band < 4 then
      .next (s.modLife fun l => { l with errors := countUp l.errors (4 * stack + band) 1 })
    else .next s
  | _ => .next s

/-- What flash, the fuses and the outside keep over a loss of power or a reset; the lifetime records and
usage resume from their last write (R477, R480). -/
def State.powerOff (s : State) : State :=
  { State.reset with
    fresh := s.fresh
    nextId := s.nextId
    agenda := s.agenda
    nym := { Nym.reset with
      boots := s.nym.boots
      journal := s.nym.journal
      fw := s.nym.fw.map fun x => { x with bootedB := false }
      floor := s.nym.floor
      flashParts := s.nym.flashParts
      flashAccts := s.nym.flashAccts
      flashSeqs := s.nym.flashSeqs
      flashUsage := s.nym.flashUsage
      halfLife := s.nym.halfLife
      out := s.nym.out
      life := s.nym.flashLife
      flashLife := s.nym.flashLife } }

/-- The cycles since power-on (R29). -/
def State.sinceOn (s : State) : Nat := (s.nym.onFor.map (· + s.clock.toNat)).getD 0

/-- A start or a reset with the power on: the time since power-on goes on (R29). -/
def State.resetSill (s : State) : State :=
  let p := s.powerOff
  { p with nym := { p.nym with onFor := some s.sinceOn } }

/-- POWER_LOSS (R477): all work ends. -/
def execPowerLoss (s : State) : Host.Outcome State Fault Refusal := .next s.powerOff

end Sys2Proof.Machine
end

