-- ==== Sys2Proof/Machine/Nymesque.lean ====
section
/-! DEFINITION. Nymesque's requests (spec/02_launched.md R36 to R42, R481, R482): who may send which, repeats
of an identifier, and the requests about jobs, counters and bytes; launches and their posting (R49, R55, R56);
and what arrives on path N from a peer (R36, R369). -/
namespace Sys2Proof.Machine

open Sys2Proof

/-! ## Requests (R36, R37, R39) -/

/-- The partition that owns an endpoint (R36). -/
def State.endpointPart (s : State) (ep : Nat) : Option Nat :=
  (s.parts.find? fun p => p.cfg.endpoints.contains ep).map (·.id)

/-- The identifiers kept for an endpoint with a new one, the newest 4,096 (R39). -/
def State.noteSeen (s : State) (h : ReqHdr) : State :=
  let mine := s.nym.seen.filter fun x => x.ep == h.ep
  let rest := s.nym.seen.filter fun x => x.ep != h.ep
  let all : List Seen := mine ++ [⟨h.ep, h.reqid, none⟩]
  { s with nym := { s.nym with seen := rest ++ all.drop (all.length - 4096) } }

/-- The stored reply of a repeated request, if it was made (R39); its identifier keeps its place among the last 4,096
(DESIGN CHOICE 85). -/
def State.repeat (s : State) (h : ReqHdr) (x : Seen) : State :=
  match x.reply with
  | some (.reply _ r st body) => s.send [.reply h.src r st body]
  | _ => s

/-- The header of a request in its first 32 bytes (R37). -/
def headerOf (ep src : Nat) (bs : List Byte) : ReqHdr where
  ep := ep
  src := src
  format := bs.getD 1 0
  prio := bs.getD 2 0
  reserved := bs.getD 3 0 != 0 || sliceNat bs 26 2 != 0
  length := leWord (slice bs 4 4)
  reqid := leDWord (slice bs 8 8)
  job := leDWord (slice bs 16 8)
  acct := sliceNat bs 24 2
  handle := leWord (slice bs 28 4)

/-- The kind numbers of the table (R37). -/
def knownKind (k : Byte) : Bool := decide (1 ≤ k.toNat ∧ k.toNat ≤ 13)

/-- What a kind's payload bytes say (R37): one that is not of its kind's form stays as bytes. Those of PATCH,
PARTCFG, ACCTCFG and FWUPD have no layout in the manual (DESIGN CHOICE 18), and the fields of MOVE, USAGE and JSIG
have their order in it and no widths (DESIGN CHOICE 74). -/
def payloadOf (k : Byte) (bs : List Byte) : Payload :=
  match k.toNat with
  | 1 => .container bs
  | 2 => ((Config.patchOf bs).map Payload.patch).getD (.bytes bs)
  | 4 => .record bs
  | 6 => if bs.length % 2 = 0 then .accounts ((List.range (bs.length / 2)).map fun i => sliceNat bs (2 * i) 2)
    else .bytes bs
  | 7 => .nonce bs
  | 9 => if bs.length = 4 then .counter (leWord bs) else .bytes bs
  | 10 => if bs.length = 24 then
      .move (leDWord (slice bs 0 8)) (leDWord (slice bs 8 8)) (leDWord (slice bs 16 8)) else .bytes bs
  | 11 => ((Config.partcfgOf bs).map fun x => Payload.partcfg x.1 x.2).getD (.bytes bs)
  | 12 => ((Config.acctcfgOf bs).map fun x => Payload.acctcfg x.1 x.2).getD (.bytes bs)
  | 13 => ((Config.imageOf bs).map Payload.image).getD (.bytes bs)
  | _ => if !knownKind k then .kind k else if bs = [] then .empty else .bytes bs

/-- A payload is of the length that the header gives (R37). -/
def payloadBytesOk (p : Payload) (n : Nat) : Bool :=
  match p with
  | .empty => n == 0
  | .container bs => n == bs.length
  | .record bs => n == bs.length
  | .nonce bs => n == bs.length
  | .accounts as => n == 2 * as.length
  | .counter _ => n == 4
  | .move _ _ _ => n == 24
  | .patch _ => n != 0
  | .partcfg _ _ => n != 0
  | .acctcfg _ _ => n != 0
  | .image _ => n != 0
  | .kind _ => true
  | .bytes _ => false

/-- The kind of a request (R37): a send that is shorter than the header is of no kind of the table. -/
def kindByte (bs : List Byte) : Byte := if bs.length < 32 then 0 else bs.getD 0 0

/-- The request that a tagged send is (R37): one whose length field is not that of its payload is not of its
kind's form. -/
def requestOf (ep src : Nat) (bs : List Byte) : ReqHdr × Payload :=
  let h := headerOf ep src bs
  let rest := bs.drop 32
  (h, if h.length.toNat = rest.length then payloadOf (kindByte bs) rest else .bytes rest)

/-- The request that arrives with an event of a kind, 0 for the unknown ones: a send of that kind, or a request
told apart already (R37). -/
def State.requestFor (s : State) (kind : Byte) : Option (ReqHdr × Payload) :=
  match s.input with
  | .message ep src bs =>
    let k := kindByte bs
    if (if kind = 0 then !knownKind k else k == kind) then some (requestOf ep src bs) else none
  | .request h (.kind k) => if kind = 0 && knownKind k then none else some (h, .kind k)
  | .request h p => some (h, p)
  | _ => none

/-- The header and its payload's length are well made (R37, R38); a priority, job, handle or account in a request
that does not use it refuses none (DESIGN CHOICE 74). -/
def requestOk (h : ReqHdr) (p : Payload) : Bool :=
  h.format == 1 && !h.reserved && decide (h.acct ≤ 1023) && payloadBytesOk p h.length.toNat

/-- Who may send a request kind (R36, R37). -/
inductive Sender where
  | partition
  | operator
  | both
  | jobZero
  deriving DecidableEq, Repr

/-- The status that refuses a request by its endpoint (R36, R38). -/
def Sender.refusal (k : Sender) (h : ReqHdr) : Option Nat :=
  match k with
  | .partition => if h.ep = 0 then some 0x08 else none
  | .operator => if h.ep = 0 then none else some 0x0C
  | .both => none
  | .jobZero => if h.ep = 0 ∧ h.job ≠ 0 then some 0x08 else none

/-- A packet is dropped and counted at its port, which is free (R36). -/
def State.dropPacket (s : State) : State :=
  { s with
    fresh := s.fresh + 1
    nym := { s.nym with portErrors := countUp s.nym.portErrors (Config.arrivalPort s.fresh % 8) 1 } }

/-- Serves the request of a kind that the input brings (R36, R37, R39): what its kind does with a well-made one
is given the partition, 0 for the operator's. A payload of another shape is malformed. A header or a payload
length that is not well made is told before a refusal of the endpoint, anything else of the payload after it
(DESIGN CHOICE 68). -/
def serve (kind : Byte) (k : Sender) (s : State) (go : State → ReqHdr → Nat → Payload → Option State) :
    Host.Outcome State Fault Refusal :=
  match s.requestFor kind with
  | some (h, p) =>
    let part := s.endpointPart h.ep
    if s.nym.sill ≠ .running then .next s
    else if h.ep ≠ 0 ∧ part.isNone then .next s.dropPacket
    else match s.nym.seen.find? fun x => x.ep == h.ep && x.reqid == h.reqid with
      | some x => .next (s.repeat h x)
      | none =>
        let s := s.noteSeen h
        if !requestOk h p then .next (s.reply h 0x09 .empty)
        else match k.refusal h with
          | some st => .next (s.reply h st .empty)
          | none => .next ((go s h (part.getD 0) p).getD (s.reply h 0x09 .empty))
  | none => .next s

/-- UNKNOWN_REQUEST (R37): a request of a kind that is none of the table's (DEDUCED 18). -/
def execUnknownRequest (s : State) : Host.Outcome State Fault Refusal :=
  serve 0 .both s fun _ _ _ _ => none

/-- DROPPED_PACKET (R35, R36): the port named by the input counts a protocol error. -/
def execDroppedPacket (s : State) : Host.Outcome State Fault Refusal :=
  match s.input with
  | .packet port =>
    if s.nym.sill = .running ∧ port < 8 then
      .next { s with nym := { s.nym with portErrors := countUp s.nym.portErrors port 1 } }
    else .next s
  | _ => .next s

/-! ## Jobs and counters (R41, R42, R37) -/

/-- A job of a partition is cancelled (R42). -/
def State.jobCancelled (s : State) (part : Nat) (job : DWord) : Bool :=
  (s.part? part).any fun p => p.jobs.contains job

/-- Answers launches that are refused or cancelled in their queue. -/
def State.answerAll (s : State) (qs : List Queued) (status : Nat) : State :=
  match qs with
  | [] => s
  | q :: rest => State.answerAll (s.reply q.h status .empty) rest status

/-- A cancel sets out for the four sections (R42, R79). -/
def State.cancelJob (s : State) (h : ReqHdr) (part : Nat) : State :=
  let s := s.modPart part fun p => { p with jobs := if p.jobs.contains h.job then p.jobs else p.jobs ++ [h.job] }
  let mine (q : Queued) : Bool := q.part == part && q.h.job == h.job
  let out := s.queue.filter mine
  let s := ({ s with queue := s.queue.filter fun q => !mine q }.answerAll out 0x0A).reclaim
  let c : CancelReq := ⟨part, h.job, some h, none, 0, [0, 1, 2, 3]⟩
  { s with cancels := s.cancels ++ [c] }

/-- CANCEL (R42): the answer follows when every section has applied the mark (R79). -/
def execCancel (s : State) : Host.Outcome State Fault Refusal :=
  serve 5 .partition s fun s h part p => if p = .empty then some (s.cancelJob h part) else none

/-- The cores that the boot has taken out of service (R31). -/
def State.outCores (s : State) : List Nat :=
  if s.nym.lowered.contains 4 then (List.range Config.cores).filter Config.needsRepair else []

/-- What STATUS reports (R31, R37, R61, R440, R480) (DEDUCED 24). -/
def State.statusBody (s : State) (h : ReqHdr) (part : Nat) : ReplyBody :=
  if h.job = 0 then .device s.nym.lowered s.outCores (if h.ep = 0 then some s.nym.life else none)
  else
    let ms := s.members.filter fun m => m.part == part && m.job == h.job
    let snaps := ((s.part? part).map (·.snaps)).getD []
    .job (ms.map fun m => (m.id, m.st)) (s.underflows.filter fun u =>
      u.job == h.job && (u.handle.extractLsb' 20 5).toNat == part) ((snaps.filter fun k => k.job == h.job).map Snap.bytes)

/-- STATUS (R37). -/
def execStatus (s : State) : Host.Outcome State Fault Refusal :=
  serve 8 .jobZero s fun s h part p => if p = .empty then some (s.reply h 0 (s.statusBody h part)) else none

/-- What happens before a request: the accesses its sender knows of, and every write of the members whose
completion message has left (R366, R369). -/
def State.reqClock (s : State) (h : ReqHdr) : Clock := Clock.join (s.epClock h.src) s.nym.doneClk

/-- One decrement for a requester (R41, R369). -/
def State.signalCounter (s : State) (h : ReqHdr) (part : Nat) (handle : Word) : State :=
  match s.applyDec part handle 1 (s.reqClock h) with
  | (s, .stale) => s.reply h 0x0B .empty
  | (s, .underflow) => s.reply h 0x0F .empty
  | (s, .value v) => (s.reply h 0 (.number v)).freeCounters

/-- JSIG (R41). -/
def execJsig (s : State) : Host.Outcome State Fault Refusal :=
  serve 9 .partition s fun s h part p =>
    match p with
    | .counter handle => some (s.signalCounter h part handle)
    | _ => none

/-! ## MOVE (R482) -/

/-- The sampler's count of an access on path N that arrives from a peer, which no core issues: the home die counts
it (R215, R353) (DEDUCED 21). -/
def State.sampleNet (s : State) (net : Bool) (part : Nat) (p : Piece) (kind pa : Nat) : State :=
  if net then s.sampleOn part (homeDie pa) ⟨0xFFFF, 0xFFFF, kind, p.size, 5, 0⟩ p.addr pa else s

/-- Reads pieces of a partition's shared memory for an agent outside the cores; `net` says that a peer does. -/
def State.readOut (s : State) (net : Bool) (part agent : Nat) (clk : Clock) (ps : List Piece) :
    State × List Byte :=
  match ps with
  | [] => (s, [])
  | p :: rest =>
    let s := s.touch part p.addr.toNat
    let (s, bs) := match s.walk (s.rootOf part) p.addr.toNat with
      | none => (s, List.replicate p.size 0)
      | some w =>
        let s := (s.raiseHeat w.leafAt false).sampleNet net part p 6 w.pa
        let (s', bs) := s.readFor agent clk 0 ⟨0, w.pa⟩ p.size
        if s.poison.contains (w.pa / 4096) || s.meetsError ⟨0, w.pa⟩ p.size then s'.readSeen ⟨0, w.pa⟩ p.size
        else (s', bs)
    let (s, more) := State.readOut s net part agent clk rest
    (s, bs ++ more)

/-- Writes bytes into pieces of a partition's shared memory for an agent outside the cores. -/
def State.writeOut (s : State) (net : Bool) (part agent : Nat) (clk : Clock) (ps : List Piece) (bs : List Byte) :
    State :=
  match ps with
  | [] => s
  | p :: rest =>
    let s := s.touch part p.addr.toNat
    let s := match s.walk (s.rootOf part) p.addr.toNat with
      | none => s
      | some w =>
        ((s.raiseHeat w.leafAt true).sampleNet net part p 7 w.pa).writeFor agent clk ⟨0, w.pa⟩ (bs.take p.size)
    State.writeOut s net part agent clk rest (bs.drop p.size)

/-- Nymesque copies bytes of a partition; the whole source is read first (R482) (DEDUCED 23). -/
def State.moveBytes (s : State) (h : ReqHdr) (part : Nat) (src dst len : DWord) : State :=
  let agent := agentC s.nextId
  let s := { s with nextId := s.nextId + 1 }
  let clk := Clock.raise (s.reqClock h) agent 1
  let (s, bs) := s.readOut false part agent clk (piecesOf false src len.toNat)
  let clk := Clock.raise clk agent 2
  let s := s.writeOut false part agent clk (piecesOf true dst len.toNat) bs
  (s.epLearns h.src clk).reply h 0 (.number len.toNat)

/-- MOVE (R482). -/
def execMove (s : State) : Host.Outcome State Fault Refusal :=
  serve 10 .partition s fun s h part p =>
    match p with
    | .move src dst len =>
      let ranges := s.rangesOf part
      if inRanges ranges src.toNat len.toNat && inRanges ranges dst.toNat len.toNat then
        some (s.moveBytes h part src dst len)
      else some (s.reply h 0x05 .empty)
    | _ => none

/-! ## LAUNCH (R481) -/

/-- An account belongs to a partition: that one's configuration lists it, and ACCTCFG has set it there (R43,
R47). -/
def State.acctIn (s : State) (part acct : Nat) : Bool :=
  ((s.part? part).any fun p => p.cfg.accounts.contains acct) &&
    (s.acct? acct).any fun a => a.cfg.part == part

/-- Checks 3 and 4 of R481. -/
def State.launchBarred (s : State) (h : ReqHdr) (part : Nat) (d : LaunchRec) : Option Nat :=
  if !s.acctIn part h.acct || decide (((s.acct? h.acct).map (·.cfg.classLimit)).getD 0 < h.prio.toNat) ||
    (d.flags.testBit 0 && (s.partMask part).getLsbD 0) then some 0x08
  else if s.jobCancelled part h.job then some 0x0A
  else none

/-- The waiting launches of an account in a class (R49). -/
def State.queueOf (s : State) (acct : Nat) (prio : Byte) : List Queued :=
  s.queue.filter fun q => q.h.acct == acct && q.h.prio == prio

/-- Checks 7 and 8 of R481. -/
def State.launchLate (s : State) (h : ReqHdr) (part : Nat) (d : LaunchRec) : Option Nat :=
  if !s.handleLive part d.gate || !s.handleLive part d.done then some 0x0B
  else if ((s.acct? h.acct).map (·.cfg.qbound)).getD 0 ≤ (s.queueOf h.acct h.prio).length then some 0x0D
  else none

/-- The version a launch names (R20). -/
def Container.named (c : Container) (version : Word) : Option Version :=
  c.version? (if version = 0 then c.current else version.toNat)

/-- Checks 5 and 6 of R481, and that the version holds the function: the version, or the status (DEDUCED 18). -/
def Container.bind (c : Container) (d : LaunchRec) : Except Nat Version :=
  match c.named d.version with
  | none => .error 0x06
  | some v =>
    if !(v.funcs.any fun f => f.id == d.function) then .error 0x09
    else if d.over c.cls || v.imageOver d then .error 0x05
    else .ok v

/-- Checks 2 to 8 of R481: the version, or the first status. -/
def State.launchCheck (s : State) (h : ReqHdr) (part : Nat) (d : LaunchRec) : Except Nat Version :=
  match s.container? h.handle with
  | none => .error 0x0B
  | some c =>
    if c.part ≠ part then .error 0x0B
    else match s.launchBarred h part d with
      | some st => .error st
      | none =>
        match c.bind d with
        | .error st => .error st
        | .ok v =>
          match s.launchLate h part d with
          | some st => .error st
          | none => .ok v

/-- Check 1 of R481. -/
def launchMade (h : ReqHdr) (bs : List Byte) : Bool :=
  bs.length == 256 && (recordOf bs).fieldsOk && decide (h.prio.toNat ≤ 3) &&
    ((recordOf bs).container == 0 || (recordOf bs).container == h.handle)

/-- LAUNCH (R481): bound to its version and queued, or refused. -/
def execLaunch (s : State) : Host.Outcome State Fault Refusal :=
  serve 4 .partition s fun s h part p =>
    match p with
    | .record bs =>
      if !launchMade h bs then none
      else
        let d := { recordOf bs with container := h.handle }
        match s.launchCheck h part d with
        | .error st => some (s.reply h st .empty)
        | .ok v =>
          let q : Queued := ⟨s.nextId, h, part, d, v.num, s.reqClock h⟩
          some { s with nextId := s.nextId + 1, queue := s.queue ++ [q] }
    | _ => none

/-! ## Posting (R49, R55, R56, R65) -/

/-- The yard reports room for a partition and class (R65). -/
def State.room (s : State) (part : Nat) (cls : CoreClass) : Bool :=
  let waits (m : Member) : Bool := m.part == part && m.desc.coreClass == cls && match m.st with
    | .ready => true
    | .parked => true
    | _ => false
  decide ((s.members.filter waits).length < (s.coresOf part cls).length)

/-- A deficit, a fraction, is greater than another (R48). -/
def deficitOver (a b : Int × Nat) : Bool := decide (b.1 * a.2 < a.1 * b.2)

/-- The better of two accounts to post from: the greater deficit, then the lower number (R49). -/
def State.better (s : State) (a b : Account) : Account :=
  if deficitOver (s.deficitNow a) (s.deficitNow b) then a
  else if deficitOver (s.deficitNow b) (s.deficitNow a) then b
  else if a.id ≤ b.id then a else b

/-- The account to post from among some (R49). -/
def State.bestAcct (s : State) (as : List Account) : Option Account :=
  match as with
  | [] => none
  | a :: rest => some (rest.foldl s.better a)

/-- The launch to post in the priority classes from one downwards (R49). -/
def State.chooseLaunch (s : State) (part : Nat) (cls : CoreClass) (prio : Nat) : Option Queued :=
  let qs := s.queue.filter fun q => q.part == part && q.desc.coreClass == cls && q.h.prio.toNat == prio
  match s.bestAcct (s.accts.filter fun a => qs.any fun q => q.h.acct == a.id), prio with
  | some a, _ => minBy (qs.filter fun q => q.h.acct == a.id) (·.order)
  | none, 0 => none
  | none, n + 1 => State.chooseLaunch s part cls n

/-- A launch leaves its queue with an answer that refuses it (R481). -/
def State.refuseQueued (s : State) (q : Queued) (status : Nat) : State :=
  ({ s with queue := s.queue.filter fun x => x.order != q.order }.reply q.h status .empty).reclaim

/-- The posting of a launch (R27, R56); the completion messages that have left until then come before its
reply, and so before its members (R366). -/
def Queued.posting (q : Queued) (sched : List SchedEntry) (done : Clock) : Posting :=
  ⟨q.desc, q.part, q.h.job, q.h.acct, q.h.prio.toNat, q.desc.container, q.version, q.h.src, false, none,
    sched, Clock.join q.clk done⟩

/-- A launch leaves its queue and its members are posted, or it stays when no section has room (R56, R57). -/
def State.postQueued (s : State) (q : Queued) (sched : List SchedEntry) : State :=
  match { s with queue := s.queue.filter fun x => x.order != q.order }.post (q.posting sched s.nym.doneClk) with
  | none => s
  | some s' => s'.reply q.h 0 (.launched (State.firstNew s s') q.desc.members)

/-- The checks of a launch at its posting, then the posting (R481). -/
def State.postLaunch (s : State) (q : Queued) : State :=
  if s.jobCancelled q.part q.h.job then s.refuseQueued q 0x0A
  else if !s.handleLive q.part q.desc.gate || !s.handleLive q.part q.desc.done then s.refuseQueued q 0x0B
  else if !q.desc.operandsIn (s.rangesOf q.part) then s.refuseQueued q 0x05
  else match s.readSchedule q.part q.desc with
    | (s, .entries l) => s.postQueued q l
    | (s, _) => s.refuseQueued q 0x05

/-- ROOM_REPORT (R49, R65): for the partition and class of the input. -/
def execRoomReport (s : State) : Host.Outcome State Fault Refusal :=
  match s.input with
  | .pool part cls =>
    if s.nym.sill ≠ .running ∨ !s.room part cls then .next s
    else match s.chooseLaunch part cls 3 with
      | none => .next s
      | some q => .next (s.postLaunch q)
  | _ => .next s

/-! ## RMA from a peer (R36, R369) -/

/-- The checks of the pieces of an RMA extent: its pages are there, allow it, are not poisoned and hold no error (DEDUCED 21). -/
def State.rmaAllowed (s : State) (part : Nat) (ps : List Piece) : Bool :=
  ps.all fun p => match s.walk (s.rootOf part) p.addr.toNat with
    | none => false
    | some w => (!p.write || w.leaf.getLsbD 2) && !s.poison.contains (w.pa / 4096) &&
      !s.meetsError ⟨0, w.pa⟩ p.size

/-- Installs the pages of pieces. -/
def State.touchAll (s : State) (part : Nat) (ps : List Piece) : State :=
  ps.foldl (fun s p => s.touch part p.addr.toNat) s

/-- Bytes that arrive over the network are charged to the partition's lowest-numbered account (R476) (DEDUCED 21). -/
def State.chargeNet (s : State) (part n : Nat) : State :=
  match minBy (((s.part? part).map (·.cfg.accounts)).getD []) id with
  | none => s
  | some a => s.charge a { Usage.zero with net := n }

/-- An RMA operation that arrives at an endpoint: nothing while accesses it follows are on their way; an
access error outside the ranges, where it has no effect; one at an endpoint of no partition is dropped and
counted (R36), and one at the operator endpoint, which has no partition to act in, is ignored (DESIGN CHOICE 73). -/
def rmaArrives (s : State) (ep peer : Nat) (addr : DWord) (size : Nat) (write aligned : Bool)
    (go : State → Nat → Nat → Clock → List Piece → State) : Host.Outcome State Fault Refusal :=
  match s.endpointPart ep with
  | none => .next (if s.nym.sill = .running ∧ ep ≠ 0 then s.dropPacket else s)
  | some part =>
    let known := s.epClock peer
    if s.nym.sill ≠ .running ∨ !s.settled known then .next s
    else if !aligned || !inRanges (s.rangesOf part) addr.toNat size then .next (s.send [.rma peer false []])
    else
      let ps := piecesOf write addr size
      let s := s.touchAll part ps
      if !s.rmaAllowed part ps then .next (s.send [.rma peer false []])
      else
        let agent := agentP peer
        .next (go s part agent (Clock.raise known agent (Clock.get known agent + 1)) ps)

/-- RMA_PUT (R369): performed at its home, then acknowledged. -/
def execRmaPut (s : State) : Host.Outcome State Fault Refusal :=
  match s.input with
  | .rma ep peer addr (.put bs) =>
    rmaArrives s ep peer addr bs.length true true fun s part agent clk ps =>
      (((s.writeOut true part agent clk ps bs).chargeNet part bs.length).epLearns peer clk).send [.rma peer true []]
  | _ => .next s

/-- RMA_GET (R36). -/
def execRmaGet (s : State) : Host.Outcome State Fault Refusal :=
  match s.input with
  | .rma ep peer addr (.get n) =>
    rmaArrives s ep peer addr n false true fun s part agent clk ps =>
      let (s, bs) := s.readOut true part agent clk ps
      (s.epLearns peer clk).send [.rma peer true bs]
  | _ => .next s

/-- What an RMA atomic writes (R35); nothing for a compare that fails. -/
def rmaCombine (op : RmaOp) (old operand compare : DWord) : Option DWord :=
  match op with
  | .add => some (old + operand)
  | .band => some (old &&& operand)
  | .bor => some (old ||| operand)
  | .bxor => some (old ^^^ operand)
  | .swap => some operand
  | .cas => if old = compare then some operand else none

/-- The operand of an RMA atomic at its size. -/
def rmaOperand (wide : Bool) (v : DWord) : DWord := if wide then v else (loWord v).setWidth 64

/-- An RMA atomic is performed at its home, as a device-scope atomic with publish (R369): the state and the
old value's bytes. -/
def State.rmaStep (s : State) (agent : Nat) (clk : Clock) (l : Loc) (op : RmaOp) (wide : Bool)
    (operand compare : DWord) : State × List Byte :=
  let n := if wide then 8 else 4
  let (s, bs) := s.readFor agent clk n l n
  match rmaCombine op (leDWord bs) (rmaOperand wide operand) (rmaOperand wide compare) with
  | none => (s, bs)
  | some v =>
    let s := (s.noteWrite agent clk n l n).putAt l (leBytes n v.toNat)
    let r : Release := ⟨l, n, clk, Config.cores, 3⟩
    ({ s with releases := s.releases ++ [r] }, bs)

/-- RMA_ATOMIC (R36, R369). -/
def execRmaAtomic (s : State) : Host.Outcome State Fault Refusal :=
  match s.input with
  | .rma ep peer addr (.atomic op wide operand compare) =>
    let n := if wide then 8 else 4
    rmaArrives s ep peer addr n true (addr.toNat % n == 0) fun s part agent clk ps =>
      match s.walk (s.rootOf part) addr.toNat with
      | none => s
      | some w =>
        let s := ps.foldl (fun s p => s.sampleNet true part p 2 w.pa) (s.raiseHeat w.leafAt true)
        let (s, bs) := s.rmaStep agent clk ⟨0, w.pa⟩ op wide operand compare
        ((s.chargeNet part n).epLearns peer clk).send [.rma peer true bs]
  | _ => .next s

end Sys2Proof.Machine
end

