-- ==== Sys2Proof/Machine/Containers.lean ====
section
/-! DEFINITION. Mladong containers (spec/01_described.md R7 to R15, R19 to R23): the bytes of a container and
their checks in the order of R15, the choice of bodies, the placing of data images, and LOAD, PATCH and
UNLOAD. -/
namespace Sys2Proof.Machine

open Sys2Proof

/-- The value that marks a body or an index as absent (R10). -/
def absent : Nat := 0xFFFFFFFF

/-! ## The header and the section table (R7, R8, R9) -/

/-- Check 1 of R15: magic, format, reserved fields and length. -/
def headerOk (bs : List Byte) : Bool :=
  decide (64 ≤ bs.length) && slice bs 0 4 == [0x4D, 0x4C, 0x44, 0x00] && sliceNat bs 4 2 == 1 &&
    decide (sliceNat bs 16 4 ≤ 1) && sliceNat bs 20 4 == bs.length && decide (bs.length ≤ 2 ^ 31 - 64) &&
    sliceNat bs 56 8 == 0

/-- An entry of the section table (R8). -/
structure Section where
  kind : Nat
  flags : Nat
  off : Nat
  len : Nat
  reserved : Nat
  deriving DecidableEq, Repr

/-- The section table of a container (R8). -/
def sectionsOf (bs : List Byte) : List Section :=
  (List.range (sliceNat bs 8 4)).map fun i =>
    let a := 64 + 16 * i
    ⟨sliceNat bs a 2, sliceNat bs (a + 2) 2, sliceNat bs (a + 4) 4, sliceNat bs (a + 8) 4, sliceNat bs (a + 12) 4⟩

/-- A section's own fields (R8, R9): a kind that is none of the table's needs its optional bit (DEDUCED 16). -/
def Section.ok (x : Section) (first len : Nat) : Bool :=
  decide (x.flags ≤ 1) && x.reserved == 0 && x.off % 64 == 0 && decide (first ≤ x.off) &&
    decide (x.off + x.len ≤ len) && (decide (1 ≤ x.kind ∧ x.kind ≤ 10) || x.flags == 1)

/-- No two sections of a list overlap (R8); one of length 0 strictly inside another overlaps it (DESIGN CHOICE 100). -/
def apart (l : List Section) : Bool :=
  match l with
  | [] => true
  | x :: rest => rest.all (fun y => !overlaps x.off x.len y.off y.len) && apart rest

/-- How many sections a list has of a kind. -/
def kindCount (l : List Section) (k : Nat) : Nat := (l.filter fun x => x.kind == k).length

/-- The bytes of the section of a kind, none when there is no such section. -/
def sectionOf (bs : List Byte) (k : Nat) : List Byte :=
  match (sectionsOf bs).find? fun x => x.kind == k with
  | none => []
  | some x => (bs.drop x.off).take x.len

/-- The section table is well made (R7, R8, R9). -/
def tableOk (bs : List Byte) : Bool :=
  let n := sliceNat bs 8 4
  let l := sectionsOf bs
  decide (1 ≤ n ∧ n ≤ 256) && decide (1 ≤ sliceNat bs 12 4 ∧ sliceNat bs 12 4 ≤ 4096) &&
    decide (64 + 16 * n ≤ bs.length) && l.all (fun x => x.ok (64 + 16 * n) bs.length) && apart l &&
    kindCount l 1 == 1 && ((List.range 11).drop 2).all (fun k => decide (kindCount l k ≤ 1)) &&
    kindCount l 10 == sliceNat bs 16 4

/-! ## The function table (R10) -/

/-- An entry of the function table (R10). -/
structure FuncEntry where
  id : Nat
  name : Nat
  tile : Nat
  loop : Nat
  scalar : Nat
  entry : Nat
  handler : Nat
  reserved : Nat
  deriving DecidableEq, Repr

/-- The function table of a container (R10). -/
def funcsOf (bs : List Byte) : List FuncEntry :=
  let t := sectionOf bs 1
  (List.range (sliceNat bs 12 4)).map fun i =>
    let w (k : Nat) : Nat := sliceNat t (32 * i + 4 * k) 4
    ⟨w 0, w 1, w 2, w 3, w 4, w 5, w 6, w 7⟩

/-- An offset or index is absent or lies within a length. -/
def offsetIn (x n : Nat) : Bool := x == absent || decide (x < n)

/-- A function's entry is well made (R10). -/
def FuncEntry.ok (f : FuncEntry) (bs : List Byte) : Bool :=
  let words := (sectionOf bs 6).length / 4
  f.reserved == 0 && offsetIn f.tile (sectionOf bs 2).length && offsetIn f.loop (sectionOf bs 3).length &&
    offsetIn f.scalar (sectionOf bs 4).length && offsetIn f.entry words && offsetIn f.handler words &&
    (f.entry == absent || f.handler != absent) &&
    (f.entry != absent || f.tile != absent || f.loop != absent || f.scalar != absent)

/-! ## Cross-references and templates (R11, R24, R50) -/

/-- A cross-reference entry (R11): level 1 from tile to loop, 2 from loop to scalar, and the lower items of an
upper one. -/
structure XRef where
  level : Nat
  func : Nat
  upper : Nat
  lower : Nat
  count : Nat
  deriving DecidableEq, Repr

/-- The entries of a cross-reference section (R11). -/
def xrefsIn (bs : List Byte) : List XRef :=
  (List.range (bs.length / 16)).map fun i =>
    let w (k : Nat) : Nat := sliceNat bs (16 * i + 4 * k) 4
    ⟨w 0, w 1, w 2, w 3 % 2 ^ 24, w 3 / 2 ^ 24⟩

/-- An entry is well made: its level is 1 or 2, and its function is in the table (R11); items that lie beyond
their bodies make no load fail (DESIGN CHOICE 70). -/
def XRef.ok (x : XRef) (fs : List FuncEntry) : Bool :=
  decide (1 ≤ x.level ∧ x.level ≤ 2) && fs.any fun f => f.id == x.func

/-- No item of a function has two entries (R11). -/
def xrefsApart (l : List XRef) : Bool :=
  match l with
  | [] => true
  | x :: rest =>
    rest.all (fun y => !(y.level == x.level && y.func == x.func && y.upper == x.upper)) && xrefsApart rest

/-- The templates of a container, in its order (R8, R50). -/
def templatesIn (bs : List Byte) : List LaunchRec :=
  (List.range (bs.length / 256)).map fun i => recordOf (slice bs (256 * i) 256)

/-- No function id stands twice (R10). -/
def idsApart (l : List FuncEntry) : Bool :=
  match l with
  | [] => true
  | f :: rest => rest.all (fun g => g.id != f.id) && idsApart rest

/-- Check 5 of R15: the section table, the sections with the entries of the cross-references and the fields of
the templates, and the function table (DEDUCED 16). -/
def bodyOk (bs : List Byte) : Bool :=
  tableOk bs && (sectionOf bs 1).length == 32 * sliceNat bs 12 4 && (sectionOf bs 6).length % 4 == 0 &&
    (sectionOf bs 5).length % 16 == 0 && (sectionOf bs 8).length % 256 == 0 &&
    (funcsOf bs).all (fun f => f.ok bs) && idsApart (funcsOf bs) &&
    (xrefsIn (sectionOf bs 5)).all (fun x => x.ok (funcsOf bs)) && xrefsApart (xrefsIn (sectionOf bs 5)) &&
    (templatesIn (sectionOf bs 8)).all LaunchRec.fieldsOk

/-- The signature that a container bears (R8, R15); nothing when it has none. -/
def signatureOf (bs : List Byte) : Option (List Byte) :=
  if sliceNat bs 16 4 % 2 = 1 ∧ kindCount (sectionsOf bs) 10 ≠ 0 then some (sectionOf bs 10) else none

/-- Check 4 of R15: a signature of the header's digest under one of the partition's container keys. -/
def signatureOk (bs : List Byte) (keys : List (List Byte)) : Bool :=
  match signatureOf bs with
  | none => false
  | some sig => keys.any fun k => Config.verify k (slice bs 24 32) sig

/-- Checks 1 to 5 of R15: the first status that a container fails with. -/
def containerStatus (bs : List Byte) (c : PartCfg) : Option Nat :=
  if !headerOk bs then some 0x01
  else if sliceNat bs 6 2 ≠ 0 ∧ sliceNat bs 6 2 ≠ 9 then some 0x03
  else if Config.sha256 (bs.drop 64) ≠ slice bs 24 32 then some 0x02
  else if c.sigReq && !signatureOk bs c.contKeys then some 0x07
  else if !bodyOk bs then some 0x01
  else none

/-! ## Code and data (R12, R13, R14) -/

/-- The words of a native code section (R12). -/
def wordsIn (bs : List Byte) : List Word := (List.range (bs.length / 4)).map fun i => leWord (slice bs (4 * i) 4)

/-- A body from an offset of its section on. -/
def bodyFrom (sect : List Byte) (off : Nat) : Option (List Byte) := if off = absent then none else some (sect.drop off)

/-- The floor word set (R14): every word of the manual whose tile registers, accumulator slots, route tags and
rings lie within the floor limits of R16. -/
def inFloor (i : Instr) : Bool :=
  match i with
  | .mcfg d _ _ => decide (d.toNat < 8)
  | .mrdc _ a => decide (a.toNat < 8)
  | .mld d _ _ => decide (d.toNat < 8)
  | .mst d _ _ => decide (d.toNat < 8)
  | .mma a b => decide (a.toNat < 8) && decide (b.toNat < 8)
  | .shiftout d => decide (d.toNat < 16)
  | .shiftin d => decide (d.toNat < 16)
  | .accclr d => decide (d.toNat < 16)
  | .cpyaOut d _ _ => decide (d.toNat < 16)
  | .cpyaIn d _ _ => decide (d.toNat < 16)
  | .tbar t _ => decide (t.toNat < 4)
  | .tbarP t _ => decide (t.toNat < 4)
  | .tbara _ t _ => decide (t.toNat < 4)
  | .tbaraP _ t _ => decide (t.toNat < 4)
  | .tbarw t _ => decide (t.toNat < 4)
  | .tbarwP t _ => decide (t.toNat < 4)
  | .ringpushClaim _ a => decide (a.toNat < 8)
  | .ringpushFill a _ => decide (a.toNat < 8)
  | .ringpopTake _ a => decide (a.toNat < 8)
  | .ringpopFree a _ => decide (a.toNat < 8)
  | .ringq _ a _ => decide (a.toNat < 8)
  | _ => true

/-- A word lies in the floor word set (R14). -/
def floorWord (w : Word) : Bool :=
  match decode w with
  | .ok i => inFloor i
  | .bad _ => false

/-- The words of a container of a class exceed a limit that a load checks (R12, R14, R15). -/
def wordsOver (cls : Nat) (ws : List Word) : Bool := decide (2 ^ 22 < ws.length) || (cls == 0 && !ws.all floorWord)

/-- Check 6 of R15: the limits that a load checks. -/
def loadOver (bs : List Byte) : Bool := wordsOver (sliceNat bs 6 2) (wordsIn (sectionOf bs 6))

/-! ## Translation (R11, R14) -/

/-- The portable bodies of a function, each where it has one, and its cross-references. -/
structure Bodies where
  func : Word
  tile : Option (List Byte)
  loop : Option (List Byte)
  scalar : Option (List Byte)
  xrefs : List XRef
  deriving DecidableEq, Repr

/-- Every one of some results, or nothing. -/
def allSome {α : Type} (l : List (Option α)) : Option (List α) :=
  match l with
  | [] => some []
  | x :: rest => x.bind fun y => (allSome rest).map fun ys => y :: ys

/-- An item's own translation: one that its body has, and that the translator implements (R14). -/
def ownWords (level : Nat) (body : Option (List Byte)) (i : Nat) : Option (List Word) :=
  body.bind fun bs => if i < Config.itemCount level bs then Config.itemWords level bs i else none

/-- The lower items that an upper item of a level is found through (R11); an entry that counts none covers its
item with no words (DESIGN CHOICE 70). -/
def Bodies.lower (b : Bodies) (level i : Nat) : Option (List Nat) :=
  (b.xrefs.find? fun x => x.level == level && x.func == b.func.toNat && x.upper == i).map fun x =>
    (List.range x.count).map (x.lower + ·)

/-- Every item of an upper body has its entry; a body of which this is false is used only whole, with no
descent from its items and none into them (R11). -/
def Bodies.linked (b : Bodies) (level : Nat) (body : Option (List Byte)) : Bool :=
  body.any fun bs => (List.range (Config.itemCount (level - 1) bs)).all fun i => (b.lower level i).isSome

/-- A scalar block in native words. -/
def Bodies.scalarItem (b : Bodies) (i : Nat) : Option (List Word) := ownWords 2 b.scalar i

/-- A loop nest in native words: its own translation, or, in a body whose items all have entries, its scalar
blocks (R11, R14 step 4). -/
def Bodies.loopItem (b : Bodies) (i : Nat) : Option (List Word) :=
  (ownWords 1 b.loop i).or
    (if b.linked 2 b.loop then (b.lower 2 i).bind fun l => (allSome (l.map b.scalarItem)).map List.flatten else none)

/-- A tile operation in native words: its own translation, or its loop nests, where the items of both bodies
all have entries (R11, R14 steps 2 and 3). -/
def Bodies.tileItem (b : Bodies) (i : Nat) : Option (List Word) :=
  (ownWords 0 b.tile i).or
    (if b.linked 1 b.tile && b.linked 2 b.loop then
      (b.lower 1 i).bind fun l => (allSome (l.map b.loopItem)).map List.flatten
    else none)

/-- Every item of the body of a level in native words, nothing when one of them is not covered (R14). -/
def levelWords (level : Nat) (body : Option (List Byte)) (item : Nat → Option (List Word)) :
    Option (List (List Word)) :=
  body.bind fun bs => allSome ((List.range (Config.itemCount level bs)).map item)

/-- The translation of a function: by its tile body with the descent per item, else by its loop body, else by its
scalar body; nothing when no level covers every item (R14): its words, entry and handler. -/
def Bodies.translate (b : Bodies) : Option (List Word × Word × Word) :=
  (((levelWords 0 b.tile b.tileItem).or (levelWords 1 b.loop b.loopItem)).or (levelWords 2 b.scalar b.scalarItem)).map
    (Config.assemble b.func)

/-- The bodies of a function of a container. -/
def FuncEntry.bodies (f : FuncEntry) (bs : List Byte) : Bodies where
  func := BitVec.ofNat 32 f.id
  tile := bodyFrom (sectionOf bs 2) f.tile
  loop := bodyFrom (sectionOf bs 3) f.loop
  scalar := bodyFrom (sectionOf bs 4) f.scalar
  xrefs := xrefsIn (sectionOf bs 5)

/-- The choice of R14 for each function: native words where it has them, else translated ones behind the
words so far; nothing when a function is untranslatable. -/
def chooseBodies (bs : List Byte) (fs : List FuncEntry) (words : List Word) : Option (List Word × List Func) :=
  match fs with
  | [] => some (words, [])
  | f :: rest =>
    let id := BitVec.ofNat 32 f.id
    if f.entry ≠ absent then
      (chooseBodies bs rest words).map fun x => (x.1, ⟨id, BitVec.ofNat 32 f.entry, BitVec.ofNat 32 f.handler⟩ :: x.2)
    else
      match (f.bodies bs).translate with
      | none => none
      | some (ws, e, h) =>
        let base := BitVec.ofNat 32 words.length
        (chooseBodies bs rest (words ++ ws)).map fun x => (x.1, ⟨id, base + e, base + h⟩ :: x.2)

/-! ## Images (R13) -/

/-- The scratch images of a container (R13): those of its native data section, none without one. -/
def scratchImagesOf (data : List Byte) : List (Word × Nat × List Byte) :=
  if data = [] then [] else Config.scratchImages data

/-- The shared images of a container (R13). -/
def sharedImagesOf (data : List Byte) : List (Nat × List Byte) := if data = [] then [] else Config.sharedImages data

/-- The part of an address that an immediate takes (R108). -/
def addressPart (part : Nat) (x : DWord) : BitVec 19 :=
  match part with
  | 0 => (x.extractLsb' 0 13).setWidth 19
  | 1 => x.extractLsb' 13 19
  | 2 => (x.extractLsb' 32 13).setWidth 19
  | _ => x.extractLsb' 45 19

/-- A word with an address part in its immediate: only LI and LIH take one (R108). -/
def patchWord (w : Word) (v : BitVec 19) : Word :=
  match decode w with
  | .ok (.li _ _) => (w &&& 0xFFF80000) ||| v.setWidth 32
  | .ok (.lih _ _) => (w &&& 0xFFF80000) ||| v.setWidth 32
  | _ => w

/-- Native words with one reference patched (R13). -/
def patchRef (base : DWord) (ws : List Word) (r : Nat × Nat × Nat) : List Word :=
  ws.modify r.1 fun w => patchWord w (addressPart r.2.2 (base + BitVec.ofNat 64 r.2.1))

/-- Native words with the references to shared images at an address (R13); no other word changes. -/
def patchedWords (data : List Byte) (base : DWord) (ws : List Word) : List Word :=
  if data = [] then ws else (Config.constRefs data).foldl (patchRef base) ws

/-- A template with the address of its schedule. -/
def LaunchRec.atSchedule (d : LaunchRec) (a : DWord) : LaunchRec := { d with schedbase := a }

/-- Member templates with the schedules that are shared images at an address (R13, R112). -/
def placedTemplates (data : List Byte) (base : DWord) (ts : List LaunchRec) : List LaunchRec :=
  if data = [] then ts
  else (Config.schedRefs data).foldl (fun l r => l.modify r.1 (·.atSchedule (base + BitVec.ofNat 64 r.2))) ts

/-- The bytes that shared images span from their address on. -/
def imagesSpan (l : List (Nat × List Byte)) : Nat := (l.map fun x => x.1 + x.2.length).foldl Nat.max 0

/-- The extents of the shared images in a partition. -/
def State.imagesIn (s : State) (part : Nat) : List (Nat × Nat) :=
  ((s.containers.filter fun c => c.part == part).flatMap (·.versions)).flatMap fun v =>
    v.shared.map fun x => (x.1.toNat, x.2.length)

/-- Memory for images is free at an address (R13). -/
def State.imageFits (s : State) (part base len : Nat) : Bool :=
  inRanges (s.rangesOf part) base len && base % frameBytes == 0 &&
    (s.imagesIn part).all fun x => !overlaps base len x.1 x.2

/-- The address of shared images (R13): one that is free, where the partition has one (DESIGN CHOICE 17). -/
def State.imageBase (s : State) (part len : Nat) : Option DWord :=
  let pick := (Config.imageBase s.fresh).toNat
  let after (x : Nat × Nat) : Nat := (x.1 + x.2 + frameBytes - 1) / frameBytes * frameBytes
  let tries := pick :: (s.rangesOf part).map (fun r => r.1.toNat) ++ (s.imagesIn part).map after
  if len = 0 then some 0 else (tries.find? fun a => s.imageFits part a len).map (BitVec.ofNat 64)

/-- Nymesque fills bytes of a partition's memory that no one uses yet. -/
def State.fillShared (s : State) (part : Nat) (ps : List Piece) (bs : List Byte) : State :=
  match ps with
  | [] => s
  | p :: rest =>
    let s := s.touch part p.addr.toNat
    let s := match s.walk (s.rootOf part) p.addr.toNat with
      | none => s
      | some w => (s.forget ⟨0, w.pa⟩ p.size).putAt ⟨0, w.pa⟩ (bs.take p.size)
    State.fillShared s part rest (bs.drop p.size)

/-- Copies shared images into memory (R13). -/
def State.fillImages (s : State) (part : Nat) (l : List (DWord × List Byte)) : State :=
  l.foldl (fun s x => s.fillShared part (piecesOf true x.1 x.2.length) x.2) s

/-! ## LOAD (R15) -/

/-- A container that has passed its checks becomes version 1 of a new handle (R15, R19). -/
def State.loadContainer (s : State) (h : ReqHdr) (part : Nat) (bs : List Byte) : State :=
  let data := sectionOf bs 7
  let images := sharedImagesOf data
  match s.imageBase part (imagesSpan images) with
  | none => s.reply h 0x05 .empty
  | some base =>
    match chooseBodies bs (funcsOf bs) (patchedWords data base (wordsIn (sectionOf bs 6))) with
    | none => s.reply h 0x04 .empty
    | some (words, funcs) =>
      let shared := images.map fun x => (base + BitVec.ofNat 64 x.1, x.2)
      let ts := placedTemplates data base (templatesIn (sectionOf bs 8))
      let v : Version := ⟨1, words, funcs, ts, scratchImagesOf data, shared⟩
      let handle := BitVec.ofNat 32 s.nextId
      let c : Container := ⟨handle, part, sliceNat bs 6 2, 1, [v]⟩
      let s := { s with nextId := s.nextId + 1, fresh := s.fresh + 1, containers := s.containers ++ [c] }
      (s.fillImages part shared).reply h 0 (.loaded handle 1)

/-- LOAD (R15). -/
def execLoad (s : State) : Host.Outcome State Fault Refusal :=
  serve 1 .partition s fun s h part p =>
    match p with
    | .container bs =>
      match (s.part? part).bind fun x => containerStatus bs x.cfg with
      | some st => some (s.reply h st .empty)
      | none =>
        if loadOver bs then some (s.reply h 0x05 .empty)
        else some (s.loadContainer h part bs)
    | _ => none

/-! ## PATCH (R20, R21) -/

/-- A replacement has native words with both indices inside them, or bodies and no native entry (R10). -/
def patchOk (b : PatchBody) : Bool :=
  match b.native with
  | some ws => decide (b.entry.toNat < ws.length) && decide (b.handler.toNat < ws.length)
  | none => b.tile.isSome || b.loop.isSome || b.scalar.isSome

/-- The choice of R14 for a replacement: its words, entry and handler. Native words are taken as they are, no
`.const` reference of them patched, and no cross-reference comes with the bodies, so each is used whole
(DESIGN CHOICE 65). -/
def patchWords (b : PatchBody) : Option (List Word × Word × Word) :=
  match b.native with
  | some ws => some (ws, b.entry, b.handler)
  | none => Bodies.translate ⟨b.func, b.tile, b.loop, b.scalar, []⟩

/-- A version with one function replaced (R21): the new words stand behind those of the version it copies, and the
old ones stay where they were (DESIGN CHOICE 65). -/
def Version.patch (v : Version) (num : Nat) (f : Word) (ws : List Word) (e h : Word) : Version :=
  let base := BitVec.ofNat 32 v.words.length
  { v with
    num := num
    words := v.words ++ ws
    funcs := updateIf v.funcs (fun x => x.id == f) fun x => { x with entry := base + e, handler := base + h } }

/-- A container with a new current version (R21). -/
def Container.grow (c : Container) (v : Version) : Container :=
  { c with
    current := v.num
    versions := c.versions ++ [v] }

/-- A patch is applied, or its status given (R15, R21); a full container is told before native words over a floor or size
limit (DESIGN CHOICE 83). -/
def State.patch (s : State) (h : ReqHdr) (c : Container) (v : Version) (b : PatchBody) : State :=
  if 16 ≤ c.versions.length then s.reply h 0x06 .empty
  else if wordsOver c.cls (b.native.getD []) then s.reply h 0x05 .empty
  else match patchWords b with
    | none => s.reply h 0x04 .empty
    | some (ws, e, hd) =>
      let new := v.patch (c.current + 1) b.func ws e hd
      let s := { s with containers := updateIf s.containers (fun x => x.handle == c.handle) fun x => x.grow new }
      s.reclaim.reply h 0 (.number new.num)

/-- The container of a partition that a request names. -/
def State.containerIn (s : State) (part : Nat) (handle : Word) : Option Container :=
  (s.container? handle).bind fun c => if c.part = part then some c else none

/-- PATCH (R21) (DEDUCED 18). -/
def execPatch (s : State) : Host.Outcome State Fault Refusal :=
  serve 2 .partition s fun s h part p =>
    match p with
    | .patch b =>
      match s.containerIn part h.handle with
      | none => some (s.reply h 0x0B .empty)
      | some c =>
        match c.version? c.current with
        | none => none
        | some v =>
          if !(v.funcs.any fun f => f.id == b.func) || !patchOk b then none else some (s.patch h c v b)
    | _ => none

/-! ## UNLOAD (R23) -/

/-- The references that a container's versions hold together (R22, R23). -/
def State.containerRefs (s : State) (c : Container) : Nat :=
  (c.versions.map fun v => s.versionRefs c.handle v.num).foldl (· + ·) 0

/-- UNLOAD (R23). -/
def execUnload (s : State) : Host.Outcome State Fault Refusal :=
  serve 3 .partition s fun s h part p =>
    match p, s.containerIn part h.handle with
    | .empty, none => some (s.reply h 0x0B .empty)
    | .empty, some c =>
      let n := s.containerRefs c
      if n ≠ 0 then some (s.reply h 0x10 (.number n))
      else some ({ s with containers := s.containers.filter fun x => x.handle != c.handle }.reply h 0 .empty)
    | _, _ => none

end Sys2Proof.Machine
end

