-- ==== Sys2Proof/Machine/Partitions.lean ====
section
/-! DEFINITION. Configuration, firmware, attestation and usage reports (spec/02_launched.md R33, R34, R43 to
R47, spec/24_retirement.md R477 to R479): PARTCFG, ACCTCFG, FWUPD, ATTEST and USAGE. -/
namespace Sys2Proof.Machine

open Sys2Proof

/-! ## The fields of a partition configuration (R43, R44, R46, R53) -/

/-- A memory range is a multiple of 2 MiB within the shared aperture (R43). -/
def rangeOk (r : DWord × DWord) : Bool :=
  r.1.toNat % 2 ^ 21 == 0 && r.2.toNat % 2 ^ 21 == 0 && decide (r.1.toNat + r.2.toNat ≤ sharedEnd)

/-- A KV pool's parameters (R330). -/
def kvOk (ranges : List (DWord × DWord)) (k : KvCfg) : Bool :=
  decide (1 ≤ k.pages ∧ k.pages ≤ 2 ^ 26) && decide (1 ≤ k.seqs ∧ k.seqs ≤ 2 ^ 20) &&
    k.pageBase.toNat % 2 ^ 21 == 0 && k.sidecarBase.toNat % 2 ^ 21 == 0 &&
    inRanges ranges k.pageBase.toNat (32768 * k.pages) && inRanges ranges k.sidecarBase.toNat (4096 * k.pages)

/-- A sampler's parameters, its ring in the partition's memory (R215). -/
def samplerOk (ranges : List (DWord × DWord)) (c : SamplerCfg) : Bool :=
  c.base.toNat % 64 == 0 && decide (6 ≤ c.m ∧ c.m ≤ 20) && decide (6 ≤ c.k ∧ c.k ≤ 20) &&
    inRanges ranges c.base.toNat (64 + 32 * 2 ^ c.m)

/-- The bytes of a peer list: up to 64 entries of 32 bytes, with no reserved bit and a port that is there (R44). -/
def peersOk (c : PartCfg) : Bool :=
  c.peerBytes.length % 32 == 0 && decide (c.peerBytes.length ≤ 2048) &&
    (peersOf c).all fun p => !p.reserved && decide (p.port ≤ 7)

/-- The fields of a configuration lie in their ranges, and it has an endpoint (R36, R43, R44, R46, R53, R67, R211,
R439). -/
def configOk (part : Nat) (c : PartCfg) : Bool :=
  decide (part ≤ 31) && c.mask.extractLsb' 11 21 == 0 && decide (c.ranges.length ≤ 16) && c.ranges.all rangeOk &&
    c.accounts.all (fun a => decide (a ≤ 1023)) && decide (c.tenantKeys.length ≤ 64) &&
    c.tenantKeys.all (fun k => decide (k.1 ≤ 63)) && decide (c.contKeys.length ≤ 4) &&
    !c.endpoints.isEmpty && peersOk c &&
    decide (areaUnits c ≤ 1024) && decide (1 ≤ skipLimitOf c ∧ skipLimitOf c ≤ 255) &&
    decide (24 ≤ sweepExpOf c ∧ sweepExpOf c ≤ 36) && decide (c.snapCodes.length ≤ 4) &&
    c.sampler.all (samplerOk c.ranges) && c.kv.all (kvOk c.ranges)

/-- Two configurations share a cluster, S-core, memory range, account or endpoint (R43). -/
def sharesWith (a b : PartCfg) : Bool :=
  a.clusters &&& b.clusters != 0 || a.scores &&& b.scores != 0 ||
    (a.ranges.any fun x => b.ranges.any fun y => overlaps x.1.toNat x.2.toNat y.1.toNat y.2.toNat) ||
    (a.accounts.any fun x => b.accounts.contains x) || a.endpoints.any fun x => b.endpoints.contains x

/-- A configuration that no partition may have: it shares with another, takes the operator's endpoint, or names
what the boot took out of service (R31, R36, R43) (DEDUCED 19). -/
def State.configBarred (s : State) (part : Nat) (c : PartCfg) : Bool :=
  (s.parts.any fun p => p.id != part && sharesWith c p.cfg) || c.endpoints.contains 0 || s.outCores.any (ownsCore c)

/-! ## Removing resources (R45) -/

/-- A configuration takes memory away that a member or a loaded container of the partition uses (R45)
(DEDUCED 19). -/
def State.rangesBusy (s : State) (part : Nat) (old new : PartCfg) : Bool :=
  (old.ranges.any fun r => !inRanges new.ranges r.1.toNat r.2.toNat) &&
    ((s.members.any fun m => m.part == part) || (s.imagesIn part).any fun x => !inRanges new.ranges x.1 x.2)

/-- A configuration takes away what a member, phase record or loaded container of the partition uses
(R45) (DEDUCED 19). A smaller yard area and a lost endpoint take nothing away (DESIGN CHOICE 86). -/
def State.removesUsed (s : State) (part : Nat) (old new : PartCfg) : Bool :=
  (s.members.any fun m => m.part == part &&
    ((m.onCore && !ownsCore new m.core) || !new.accounts.contains m.acct)) || s.rangesBusy part old new

/-- The leaves below a table entry's address, each with the address it translates. -/
def State.leavesUnder (s : State) (a1 va1 : Nat) : List (Nat × Nat) :=
  let t2 := entryFrame (s.entryAt a1)
  ((s.entriesIn t2).filter fun a => entryOk (s.entryAt a) 2).flatMap fun a2 =>
    let va2 := va1 + (a2 - t2) / 8 * 2 ^ 29
    if (s.entryAt a2).getLsbD 1 then [(a2, va2)]
    else
      let t3 := entryFrame (s.entryAt a2)
      ((s.entriesIn t3).filter fun a => entryOk (s.entryAt a) 3).map fun a3 => (a3, va2 + (a3 - t3) / 8 * 2 ^ 16)

/-- The leaves of a partition, each with the address it translates (R207). -/
def State.leafVas (s : State) (root : Nat) : List (Nat × Nat) :=
  ((s.entriesIn root).filter fun a => entryOk (s.entryAt a) 1).flatMap fun a =>
    s.leavesUnder a ((a - root) / 8 * 2 ^ 42)

/-- The 1 GiB pages that the ranges do not hold whole are cut into 2 MiB pages over the same frames (R209). -/
def State.cutLarge (s : State) (part : Nat) (ranges : List (DWord × DWord)) : State :=
  let large := (s.leafVas (s.rootOf part)).filter fun x => entrySize (s.entryAt x.1) == 2 && x.1 % 16 == 0
  (large.filter fun x => !inRanges ranges x.2 (2 ^ 30)).foldl (fun s x =>
    s.mapSmall part (x.2 / frameBytes) (s.entryAt x.1) (entryFrame (s.entryAt x.1)) 1 (spanOf 2)) s

/-- Pages outside the ranges leave the page table (R207, R213). -/
def State.unmapOutside (s : State) (part : Nat) (ranges : List (DWord × DWord)) : State :=
  let s := s.cutLarge part ranges
  ((s.leafVas (s.rootOf part)).filter fun x => !inRanges ranges x.2 1).foldl (fun s x => s.setEntry x.1 0) s

/-! ## PARTCFG (R42, R45) -/

/-- A KV unit that holds nothing. -/
def KvUnit.empty : KvUnit := ⟨[], [], [], [], [], [], []⟩

/-- The write counts of a tenant's pages that have run out start again under a new key (R339) (DEDUCED 22). -/
def KvUnit.rekey (u : KvUnit) (tenant : Nat) : KvUnit :=
  { u with entries := updateIf u.entries (fun e => e.tenant == tenant && e.wcount == 0xFFFFFFFF) fun e =>
      { e with wcount := 0 } }

/-- The tenants whose key a configuration replaces. -/
def rekeyed (old new : PartCfg) : List Nat :=
  (new.tenantKeys.filter fun k => assoc old.tenantKeys k.1 != some k.2).map (·.1)

/-- A partition with a new configuration (R42, R45) (DEDUCED 19). -/
def Partition.reconfigure (p : Partition) (c : PartCfg) : Partition :=
  { p with
    cfg := c
    jobs := []
    kv := if p.cfg.kv = c.kv then (rekeyed p.cfg c).foldl KvUnit.rekey p.kv else KvUnit.empty }

/-- A partition that has not been configured before (R43, R479). -/
def State.newPartition (s : State) (part root : Nat) (c : PartCfg) : Partition where
  id := part
  cfg := c
  root := root
  jobs := []
  kv := KvUnit.empty
  seq := (assoc s.nym.flashSeqs part).getD 0
  samples := []
  latched := none
  snaps := []
  sweepAt := s.clock + BitVec.ofNat 64 (2 ^ sweepExpOf c)

/-- A partition enters the machine with an empty page table (R207). -/
def State.addPartition (s : State) (part : Nat) (c : PartCfg) : State :=
  let (root, s) := s.takeFrame
  { s with parts := s.parts ++ [s.newPartition part root c] }

/-- A configuration is applied (R45): a new partition, or a change of one, whose cancel marks go (R42); a section that
a cancel has still to reach sets its mark afterwards (DESIGN CHOICE 101). -/
def State.applyConfig (s : State) (part : Nat) (c : PartCfg) : State :=
  match s.part? part with
  | none => s.addPartition part c
  | some _ =>
    let s := s.unmapOutside part c.ranges
    { s.modPart part fun x => x.reconfigure c with marks := s.marks.filter fun k => k.part != part }

/-- Flash keeps a configuration, and no longer one of a partition that this start has not configured and that would
share with it (R43) (DESIGN CHOICE 95). -/
def keptWith (cfgs : List (Nat × PartCfg)) (part : Nat) (c : PartCfg) : List (Nat × PartCfg) :=
  assocSet (cfgs.filter fun x => x.1 == part || !sharesWith c x.2) part c

/-- A configuration goes to flash (R28, R43). -/
def State.keepConfig (s : State) (part : Nat) (c : PartCfg) : State :=
  { s with nym := { s.nym with flashParts := keptWith s.nym.flashParts part c } }

/-- PARTCFG (R43, R45): a malformed one is told first, then one that shares what another has, then one that takes
away what is in use (DESIGN CHOICE 68). -/
def execPartcfg (s : State) : Host.Outcome State Fault Refusal :=
  serve 11 .operator s fun s h _ p =>
    match p with
    | .partcfg part c =>
      if !configOk part c then none
      else if s.configBarred part c then some (s.reply h 0x08 .empty)
      else if (s.part? part).any fun x => s.removesUsed part x.cfg c then some (s.reply h 0x0E .empty)
      else some ((((s.applyConfig part c).keepConfig part c).settleOrder).reply h 0 (.data (Config.configDigest c)))
    | _ => none

/-! ## ACCTCFG (R47) -/

/-- The fields of an account configuration lie in their ranges (R47, R332). -/
def acctOk (a : Nat) (c : AcctCfg) : Bool :=
  decide (a ≤ 1023) && decide (1 ≤ c.weight ∧ c.weight ≤ 255) && decide (c.classLimit ≤ 3) &&
    decide (1 ≤ c.qbound ∧ c.qbound ≤ 65535) && decide (c.tenant ≤ 63)

/-- An account that has not been configured before; its counters go on where flash holds them (R476, R477). -/
def State.newAccount (s : State) (a : Nat) (c : AcctCfg) : Account :=
  { s.unsetAcct a with cfg := c }

/-- An account configuration is applied (R47, R48). -/
def State.applyAcct (s : State) (a : Nat) (c : AcctCfg) : State :=
  match s.acct? a with
  | none => { s with accts := s.accts ++ [s.newAccount a c] }
  | some _ => s.modAcct a fun x => { x with cfg := c }

/-- An account configuration goes to flash (R28). -/
def State.keepAcct (s : State) (a : Nat) (c : AcctCfg) : State :=
  { s with nym := { s.nym with flashAccts := assocSet s.nym.flashAccts a c } }

/-- ACCTCFG (R47): the partition's configuration names the account (R38). -/
def execAcctcfg (s : State) : Host.Outcome State Fault Refusal :=
  serve 12 .operator s fun s h _ p =>
    match p with
    | .acctcfg a c =>
      if !acctOk a c then none
      else if !((s.part? c.part).any fun x => x.cfg.accounts.contains a) then some (s.reply h 0x08 .empty)
      else some (((s.applyAcct a c).keepAcct a c).reply h 0 .empty)
    | _ => none

/-! ## Firmware (R33) -/

/-- The slots of a firmware image of the device. -/
def Nym.pair? (n : Nym) (id : Nat) : Option FwPair := n.fw.find? fun x => x.id == id

/-- An image goes to the slot that did not boot, slot B in a recovery in which neither did (DESIGN CHOICE 67); its
write sequence is one more than the other's (R33), in recovery too (DESIGN CHOICE 72). -/
def FwPair.writeInactive (x : FwPair) (i : FwImage) : FwPair :=
  if x.bootedB then { x with a := ⟨i, x.b.writeSeq + 1⟩ } else { x with b := ⟨i, x.a.writeSeq + 1⟩ }

/-- An image goes to the inactive slot of its pair (R33). -/
def Nym.writeInactive (n : Nym) (i : FwImage) : Nym :=
  { n with fw := updateIf n.fw (fun x => x.id == i.id) fun x => x.writeInactive i }

/-- The number of the slot that did not boot: 0 for A, 1 for B. -/
def FwPair.inactive (x : FwPair) : Nat := if x.bootedB then 0 else 1

/-- FWUPD (R33): of one of the device's images. -/
def execFwupd (s : State) : Host.Outcome State Fault Refusal :=
  serve 13 .operator s fun s h _ p =>
    match p with
    | .image i => (s.nym.pair? i.id).map fun x =>
        { s with nym := s.nym.writeInactive i }.reply h 0 (.number x.inactive)
    | _ => none

/-! ## Attestation (R34) -/

/-- CRC-32 (R29). -/
def crcJournal (bs : List Byte) : Word := crc32 0xEDB88320 bs

/-- The 16 bytes of a journal record (R29). -/
def Journal.bytes (j : Journal) : List Byte :=
  let bs := leBytes 4 j.start ++ leBytes 1 j.step ++ leBytes 1 j.event ++ leBytes 2 j.detail.toNat ++ leBytes 4 j.time
  bs ++ leBytes 4 (crcJournal bs).toNat

/-- The journal records of the current boot. -/
def Nym.bootJournal (n : Nym) : List Journal := n.journal.filter fun j => j.start == n.boots

/-- The slot that booted. -/
def FwPair.booted (x : FwPair) : FwSlot := if x.bootedB then x.b else x.a

/-- An attestation before its signature, with the cores out of service (R31, R34); zeros for the operator in place of the configuration digest and
the sequence (R36). -/
def State.attestBody (s : State) (nonce : List Byte) (p : Option Partition) : Attest where
  nonce := nonce
  firmware := s.nym.fw.map fun x => Config.sha256 x.booted.image.body
  journal := Config.sha256 (s.nym.bootJournal.flatMap Journal.bytes)
  lowered := s.nym.lowered
  cores := s.outCores
  config := match p with
    | some x => Config.configDigest x.cfg
    | none => List.replicate 32 0
  seq := (p.map (·.seq)).getD 0
  certificate := Config.certificate
  signature := []

/-- The bytes that an attestation's signature covers (DESIGN CHOICE 20). -/
def Attest.bytes (a : Attest) : List Byte :=
  a.nonce ++ a.firmware.flatten ++ a.journal ++ a.lowered.map (BitVec.ofNat 8) ++ a.cores.flatMap (leBytes 2) ++
    a.config ++ leBytes 8 a.seq ++ a.certificate

/-- ATTEST (R34). -/
def execAttest (s : State) : Host.Outcome State Fault Refusal :=
  serve 7 .both s fun s h part p =>
    match p with
    | .nonce bs =>
      if bs.length ≠ 32 then none
      else
        let a := s.attestBody bs (if h.ep = 0 then none else s.part? part)
        some (s.reply h 0 (.attest { a with signature := Config.sign a.bytes }))
    | _ => none

/-! ## Usage reports (R477 to R479) -/

/-- The partition whose configuration lists an account (R43). -/
def State.partOfAcct (s : State) (a : Nat) : Option Nat :=
  (s.parts.find? fun p => p.cfg.accounts.contains a).map (·.id)

/-- The counters of an account, those in flash while nothing has charged it since the start (R476, R477). -/
def State.usageOf (s : State) (a : Nat) : Usage := ((s.acct? a).getD (s.unsetAcct a)).usage

/-- An account lies outside the partitions that a requester may name (R478). -/
def State.acctOutside (s : State) (h : ReqHdr) (part a : Nat) : Bool :=
  match s.partOfAcct a with
  | none => true
  | some p => h.ep != 0 && p != part

/-- The bytes of a report's entry (R478). -/
def usageBytes (a : Nat) (u : Usage) : List Byte :=
  leBytes 2 a ++ leBytes 6 0 ++ leBytes 8 u.cells ++ leBytes 8 u.issue ++ leBytes 8 u.mem ++ leBytes 8 u.copy ++
    leBytes 8 u.net ++ leBytes 8 u.sieve ++ leBytes 8 u.resident

/-- The bytes of a report before its signature (R478). -/
def Report.bytes (r : Report) : List Byte :=
  [0x55, 0x53, 0x47, 0x00] ++ leBytes 2 1 ++ leBytes 1 r.part ++ leBytes 1 0 ++ leBytes 8 r.seq ++
    leBytes 8 r.time.toNat ++ leBytes 4 r.boot ++ leBytes 2 r.entries.length ++ leBytes 2 0 ++ r.devid ++
    r.entries.flatMap fun e => usageBytes e.1 e.2

/-- A partition's next report number, in flash before the report is signed (R479). -/
def State.nextSeq (s : State) (part : Nat) : State × Nat :=
  let n := ((s.part? part).map (·.seq)).getD 0 + 1
  let s := s.modPart part fun p => { p with seq := n }
  ({ s with nym := { s.nym with flashSeqs := assocSet s.nym.flashSeqs part n } }, n)

/-- The report of some accounts of a partition, signed (R477, R478). -/
def State.usageReport (s : State) (part : Nat) (as : List Nat) : State × Report :=
  let (s, n) := s.writeUsage.nextSeq part
  let entries := as.map fun a => (a, s.usageOf a)
  let r : Report := ⟨part, n, s.clock, s.nym.boots, entries, Config.sha256 Config.certificate, []⟩
  (s, { r with signature := Config.sign r.bytes })

/-- USAGE (R478) (DEDUCED 18). -/
def execUsage (s : State) : Host.Outcome State Fault Refusal :=
  serve 6 .both s fun s h part p =>
    match p with
    | .accounts as =>
      if as.length = 0 ∨ 1024 < as.length then none
      else if as.any (s.acctOutside h part) then some (s.reply h 0x08 .empty)
      else
        let owner := (s.partOfAcct (as.headD 0)).getD 0
        if as.any fun a => s.partOfAcct a != some owner then none
        else
          let (s, r) := s.usageReport owner as
          some (s.reply h 0 (.report r))
    | _ => none

end Sys2Proof.Machine
end

