-- ==== Sys2Proof/Machine/Boot.lean ====
section
/-! DEFINITION. Boot and recovery (spec/02_launched.md R28 to R33): the journal, the judgement of steps, their
procedures and effects, and what the board controller may do over I3C. -/
namespace Sys2Proof.Machine

open Sys2Proof

/-! ## The steps and their journal (R28, R29, R30) -/

/-- A step is optional (R28). -/
def stepOptional (n : Nat) : Bool := n == 6
/-- A step has an alternate procedure (R28). -/
def stepAlternate (n : Nat) : Bool := [2, 3, 4, 5, 8, 10].contains n

/-- A record is appended to the journal, with the milliseconds since power-on (R29): a free number of cycles has
passed since the one before (DESIGN CHOICE 8). -/
def State.record (s : State) (n event : Nat) (detail : BitVec 16) : State :=
  let s := { s with clock := later s.clock (Config.elapsed s.fresh), fresh := s.fresh + 1 }
  let j : Journal := ⟨s.nym.boots, n, event, detail, s.sinceOn / Config.cyclesPerMs % 2 ^ 32⟩
  { s with nym := { s.nym with journal := s.nym.journal ++ [j] } }

/-- A record whose reason code no failure gives (R29) (DESIGN CHOICE 8). -/
def State.recordFree (s : State) (n event : Nat) : State := s.record n event (Config.bootDetail s.fresh)

/-- How the previous start's records judge a step (R30). -/
inductive Judgement where
  | sound
  | failed
  | failedBoth
  deriving DecidableEq, Repr

/-- The most recent event of a step in the previous start (R30). -/
def Nym.lastEvent (m : Nym) (n : Nat) : Option Nat :=
  ((m.journal.filter fun j => j.start + 1 == m.boots && j.step == n).getLast?).map (·.event)

/-- The judgement of a step (R30). -/
def Nym.judge (m : Nym) (n : Nat) : Judgement :=
  match m.lastEvent n with
  | some 0 => .failed
  | some 2 => .failed
  | some 4 => .failedBoth
  | some 6 => .failedBoth
  | _ => .sound

/-- A step's capability is lowered (R31). -/
def State.lower (s : State) (n : Nat) : State := { s with nym := { s.nym with lowered := s.nym.lowered ++ [n] } }

/-! ## Firmware slots (R33) -/

/-- A slot qualifies: its signature verifies, and its rollback number is at least the floor (R33)
(DESIGN CHOICE 6). -/
def FwSlot.qualifies (x : FwSlot) (floor : Nat) : Bool :=
  Config.verify Config.firmwareKey (Config.sha256 x.image.body) x.image.signature &&
    decide (floor ≤ x.image.rollback.toNat)

/-- Slot B is newer than slot A (R33). -/
def FwPair.newerB (x : FwPair) : Bool :=
  decide (x.a.image.rollback.toNat < x.b.image.rollback.toNat) ||
    (x.a.image.rollback == x.b.image.rollback && decide (x.a.writeSeq.toNat < x.b.writeSeq.toNat))

/-- The slot that step 1 boots, whether it is B; nothing when none qualifies (R33). -/
def FwPair.choose (x : FwPair) (floor : Nat) : Option Bool :=
  match x.a.qualifies floor, x.b.qualifies floor with
  | true, true => some x.newerB
  | true, false => some false
  | false, true => some true
  | false, false => none

/-- Every firmware image has a slot that qualifies (R33). -/
def Nym.bootable (m : Nym) : Bool := m.fw.all fun x => (x.choose m.floor).isSome

/-- The image of every pair boots from its chosen slot (R33). -/
def Nym.bootFw (m : Nym) : Nym := { m with fw := m.fw.map fun x => { x with bootedB := (x.choose m.floor).getD false } }

/-- The floor after a start has passed step 12: the numbers of the slots that booted raise it (R33), one that was
written in recovery among them (DESIGN CHOICE 72). -/
def Nym.raisedFloor (m : Nym) : Nat := m.fw.foldl (fun n x => Nat.max n x.booted.image.rollback.toNat) m.floor

/-! ## What the steps bring about (R28, R31) -/

/-- A configuration without what is out of service (R31). -/
def inService (out : List Nat) (c : PartCfg) : PartCfg :=
  let bad (k : Nat) : Bool := out.any fun x => isM x && x / 4 == k
  { c with
    clusters := (List.range 48).foldl (fun m k => if bad k then m &&& ~~~(1#48 <<< k) else m) c.clusters
    scores := (List.range 32).foldl
      (fun m k => if out.contains (Config.mCores + k) then m &&& ~~~(1#32 <<< k) else m) c.scores }

/-- Step 10 loads the configurations (R28, R31). -/
def State.loadConfigs (s : State) : State :=
  let s := s.nym.flashParts.foldl (fun s x => s.addPartition x.1 (inService s.outCores x.2)) s
  s.nym.flashAccts.foldl (fun s x => s.applyAcct x.1 x.2) s

/-- The half-life that the device is set to: 1 to 3,600 s, 60 by default (R47). -/
def halfLifeSet : Nat := if 1 ≤ Config.halfLife ∧ Config.halfLife ≤ 3600 then Config.halfLife else 60

/-- Step 12 starts Nymesque with the device's half-life, and raises the floor to the numbers of the slots that
booted (R28, R33, R47). -/
def State.startNymesque (s : State) : State :=
  let s := { s with
    nym := { s.nym with
      sill := .running
      halfLife := halfLifeSet
      floor := s.nym.raisedFloor }
    usageAt := s.clock + BitVec.ofNat 64 (2 ^ 20)
    advertAt := s.clock + 4096 }
  s.send [.ready]

/-- What a step brings about by its normal procedure. -/
def State.stepEffect (s : State) (n : Nat) : State :=
  match n with
  | 1 => { s with nym := s.nym.bootFw }
  | 10 => s.loadConfigs
  | 12 => s.startNymesque
  | _ => s

/-- How a step ends: the next follows, the device enters recovery, or the start ends. -/
inductive StepEnd where
  | next
  | recovery
  | ended
  deriving DecidableEq, Repr

/-- The normal procedure of a step (R29, R30). Without a qualifying slot of some image step 1 fails (R33) (DEDUCED 7). -/
def State.normalStep (s : State) (n : Nat) (r : BootResult) : State × StepEnd :=
  let s := s.recordFree n 0
  let r := if n = 1 ∧ ¬s.nym.bootable then .failed (Config.bootDetail s.fresh) else r
  match r with
  | .completed => ((s.recordFree n 1).stepEffect n, .next)
  | .failed d => (s.record n 2 d, if stepOptional n || stepAlternate n then .ended else .recovery)
  | .hung => (s, .ended)

/-- The alternate procedure of a step (R30, R31) (DEDUCED 7). -/
def State.alternateStep (s : State) (n : Nat) (r : BootResult) : State × StepEnd :=
  let s := s.recordFree n 4
  match r with
  | .completed => ((s.recordFree n 5).lower n, .next)
  | .failed d => (s.record n 6 d, .ended)
  | .hung => (s, .ended)

/-- One boot step, as the previous start judges it (R30). -/
def State.bootStep (s : State) (n : Nat) (r : BootResult) : State × StepEnd :=
  match s.nym.judge n with
  | .sound => s.normalStep n r
  | j =>
    if stepOptional n then ((s.recordFree n 3).lower n, .next)
    else if j = .failed ∧ stepAlternate n then s.alternateStep n r
    else (s, .recovery)

/-- The boot steps from a number on (R28); steps without a result given complete. -/
def State.bootFrom (s : State) (n : Nat) (left : Nat) (rs : List BootResult) : State :=
  match left with
  | 0 => s
  | left + 1 =>
    let (s, e) := s.bootStep n (rs.headD .completed)
    match e with
    | .next => State.bootFrom s (n + 1) left rs.tail
    | .recovery => { s with nym := { s.nym with sill := .recovery } }
    | .ended => s

/-- A start, at power-on or by a reset: the boot count rises and the twelve steps run in order (R28, R29). -/
def State.boot (s : State) (rs : List BootResult) : State :=
  let s := s.resetSill
  { s with nym := { s.nym with boots := s.nym.boots + 1 } }.bootFrom 1 12 rs

/-- BOOT (R28): on power-on or reset. -/
def execBoot (s : State) : Host.Outcome State Fault Refusal :=
  match s.nym.sill, s.input with
  | .off, .boot rs => .next (s.boot rs)
  | .off, .none => .next (s.boot [])
  | _, _ => .next s

/-! ## Recovery (R32) -/

/-- I3C_JOURNAL_READ (R32). -/
def execI3cJournalRead (s : State) : Host.Outcome State Fault Refusal :=
  if s.nym.sill = .recovery then .next (s.send [.journal s.nym.journal]) else .next s

/-- I3C_FIRMWARE_WRITE (R32): a signed image. -/
def execI3cFirmwareWrite (s : State) : Host.Outcome State Fault Refusal :=
  match s.input with
  | .image i =>
    if s.nym.sill = .recovery then .next { s with nym := s.nym.writeInactive i } else .next s
  | _ => .next s

/-- I3C_RESET (R32). -/
def execI3cReset (s : State) : Host.Outcome State Fault Refusal :=
  if s.nym.sill = .recovery then .next s.resetSill else .next s

end Sys2Proof.Machine
end

