-- ==== Sys2Proof/Machine/TrapOps.lean ====
section
/-! DEFINITION. The trap and snapshot instructions (spec/20_interruptions.md R441 to R448). -/
namespace Sys2Proof.Machine

open Sys2Proof

/-- R443: TRAP. -/
def execTrap (a : Name) (c : BitVec 6) (s : State) : Host.Outcome State Fault Refusal :=
  issueWord (.trap a c) s fun s t => s.trap t.uid (448 + c.toNat) ((s.name t a).setWidth 64)

/-- R444: BKPT. -/
def execBkpt (b : Name) (s : State) : Host.Outcome State Fault Refusal :=
  issueWord (.bkpt b) s fun s t => s.trap t.uid 0x180 (b.setWidth 64)

/-- R445: RETT. -/
def execRett (a : Name) (s : State) : Host.Outcome State Fault Refusal :=
  issueWord (.rett a) s fun s t =>
    s.modThread t.uid fun x => x.returnFromHandler (if a = 0 then t.xpc else s.name t a)

/-- `xhand` (R422). -/
def Thread.xhand (t : Thread) : Word :=
  field (if t.busy then 1 else 0) 31 1 ||| field (if t.pendq.isEmpty then 0 else 1) 30 1 |||
  field t.pendq.length 16 4 ||| field t.traps 0 16

/-- R446: MFX. -/
def execMfx (d : Name) (a : BitVec 3) (s : State) : Host.Outcome State Fault Refusal :=
  issueWord (.mfx d a) s fun s t =>
    match a.toNat with
    | 0 => s.result t d t.xpc
    | 1 => s.result t d t.xcause
    | 2 => s.resultPair t d t.xaddr
    | 3 => s.result t d t.xstat
    | _ => s.result t d t.xhand

/-- A value that MTX accepts for a trap-state register (R421, R446): reserved bits zero. -/
def mtxOk (a : Nat) (v : Word) (bent : Bool) : Bool :=
  match a with
  | 1 => v.extractLsb' 9 20 == 0
  | 3 => xstatOk v bent
  | 4 => v.extractLsb' 20 10 == 0
  | _ => true

/-- The write of MTX; read-only fields keep their value (R420 to R422). -/
def Thread.writeTrapState (t : Thread) (a : Nat) (v : Word) (w : DWord) : Thread :=
  match a with
  | 0 => { t with xpc := v }
  | 1 => { t with xcause := (v &&& ~~~(1#32 <<< 29)) ||| (t.xcause &&& (1#32 <<< 29)) }
  | 2 => { t with xaddr := w }
  | 3 => { t with xstat := v }
  | _ => { t with busy := v.getLsbD 31 }

/-- R446: MTX. -/
def execMtx (a : BitVec 3) (b : Name) (s : State) : Host.Outcome State Fault Refusal :=
  issueWord (.mtx a b) s fun s t =>
    let v := s.name t b
    if mtxOk a.toNat v (s.inBent t) then
      (s.modThread t.uid fun x => x.writeTrapState a.toNat v (s.pair t b)).finish t.uid
    else s.trap t.uid 0x181 (v.setWidth 64)

/-- R447: SNAP. -/
def execSnap (d a : Name) (s : State) : Host.Outcome State Fault Refusal :=
  issueWord (.snap d a) s fun s t =>
    match s.member? t.member with
    | none => s.result t d 0
    | some m =>
      let (s', sent) := s.snapshot m.part (s.snapHeader m.part m.job (s.name t a) t.core t.tid 0)
      s'.result t d (boolWord sent)

/-- The eight words of a progress record (R316). -/
def Progress.words (p : Progress) : List Word :=
  [BitVec.ofNat 32 (p.cause % 65536 + 65536 * p.under), p.pc, loWord p.addr, hiWord p.addr,
    BitVec.ofNat 32 p.rows, BitVec.ofNat 32 p.bytes, p.shape, BitVec.ofNat 32 (p.dest % 65536)]

/-- R448: FLTQ; the record while `xcause`.rec is 1, else zeros. -/
def execFltq (d : Name) (s : State) : Host.Outcome State Fault Refusal :=
  issueWord (.fltq d) s fun s t =>
    let ws := match t.latched with
      | some p => if t.xcause.getLsbD 29 then p.words else List.replicate 8 0
      | none => List.replicate 8 0
    (s.writeAll t.uid (s.blockSlots t d 8) ws).finish t.uid

end Sys2Proof.Machine
end

