-- ==== Sys2Proof/Machine/Vector.lean ====
section
/-! DEFINITION. Vector arithmetic (spec/12_vector.md R252 to R271): floating operations, conversions,
packed integers and cross-lane operations. -/
namespace Sys2Proof.Machine

open Sys2Proof

/-! ## Floating arithmetic (R255 to R261) -/

/-- The element format of a format code (R255). -/
def elemFmt (f : BitVec 2) : Fmt :=
  match f.toNat with
  | 1 => bf16
  | 2 => fp16
  | _ => fp32

/-- The 16-bit element j of a word (R242). -/
def half (w : Word) (j : Nat) : Nat := w.toNat / 2 ^ (16 * j) % 2 ^ 16

/-- An operation on each element of a word of the format code (R242, R256). -/
def perElem (f : BitVec 2) (op : Fmt → Nat → Nat → Nat → Nat) (a b d : Word) : Word :=
  if f = 0 then BitVec.ofNat 32 (op fp32 a.toNat b.toNat d.toNat)
  else BitVec.ofNat 32 (op (elemFmt f) (half a 0) (half b 0) (half d 0) +
    2 ^ 16 * op (elemFmt f) (half a 1) (half b 1) (half d 1))

/-- A floating word operation: sources a and b, and the destination read before its write. -/
def floatOp (i : Instr) (f : BitVec 2) (d a b : Name) (op : Fmt → Nat → Nat → Nat → Nat) (s : State) :
    Host.Outcome State Fault Refusal :=
  issueWord i s fun s t => s.result t d (perElem f op (s.name t a) (s.name t b) (s.name t d))

/-- R256: FADD. -/
def execFadd (f m : BitVec 2) (d a b : Name) (s : State) : Host.Outcome State Fault Refusal :=
  issueWord (.fadd f m d a b) s fun s t => s.result t d (perElem f (fun k x y _ =>
    (k.round (Mode.ofBits m) false ((k.value x).add (Mode.ofBits m) (k.value y))).1)
    (s.name t a) (s.name t b) 0)
/-- R256: FSUB. -/
def execFsub (f m : BitVec 2) (d a b : Name) (s : State) : Host.Outcome State Fault Refusal :=
  issueWord (.fsub f m d a b) s fun s t => s.result t d (perElem f (fun k x y _ =>
    (k.round (Mode.ofBits m) false ((k.value x).add (Mode.ofBits m) (k.value y).neg)).1)
    (s.name t a) (s.name t b) 0)
/-- R256: FMUL. -/
def execFmul (f m : BitVec 2) (d a b : Name) (s : State) : Host.Outcome State Fault Refusal :=
  issueWord (.fmul f m d a b) s fun s t => s.result t d (perElem f (fun k x y _ =>
    (k.round (Mode.ofBits m) false ((k.value x).mul (k.value y))).1) (s.name t a) (s.name t b) 0)
/-- R256: FFMA, with one rounding; d is read before it is written. -/
def execFfma (f m : BitVec 2) (d a b : Name) (s : State) : Host.Outcome State Fault Refusal :=
  floatOp (.ffma f m d a b) f d a b (fun k x y z =>
    (k.round (Mode.ofBits m) false (((k.value x).mul (k.value y)).add (Mode.ofBits m) (k.value z))).1) s
/-- R258: FMIN. -/
def execFmin (f : BitVec 2) (d a b : Name) (s : State) : Host.Outcome State Fault Refusal :=
  issueWord (.fmin f d a b) s fun s t =>
    s.result t d (perElem f (fun k x y _ => k.minCode x y) (s.name t a) (s.name t b) 0)
/-- R258: FMAX. -/
def execFmax (f : BitVec 2) (d a b : Name) (s : State) : Host.Outcome State Fault Refusal :=
  issueWord (.fmax f d a b) s fun s t =>
    s.result t d (perElem f (fun k x y _ => k.largerCode x y) (s.name t a) (s.name t b) 0)
/-- R258: FNEG inverts the sign bit; a NaN gives the canonical NaN. -/
def execFneg (f : BitVec 2) (d a : Name) (s : State) : Host.Outcome State Fault Refusal :=
  issueWord (.fneg f d a) s fun s t => s.result t d (perElem f (fun k x _ _ =>
    if (k.value x).isNan then k.nanCode else (x + k.signWeight) % (2 * k.signWeight)) (s.name t a) 0 0)
/-- R258: FABS clears the sign bit; a NaN gives the canonical NaN. -/
def execFabs (f : BitVec 2) (d a : Name) (s : State) : Host.Outcome State Fault Refusal :=
  issueWord (.fabs f d a) s fun s t => s.result t d (perElem f (fun k x _ _ =>
    if (k.value x).isNan then k.nanCode else x % k.signWeight) (s.name t a) 0 0)
/-- R259: FRCP. -/
def execFrcp (d a : Name) (s : State) : Host.Outcome State Fault Refusal :=
  issueWord (.frcp d a) s fun s t => s.result t d (rcpF32 (s.name t a))
/-- R259: FRSQ. -/
def execFrsq (d a : Name) (s : State) : Host.Outcome State Fault Refusal :=
  issueWord (.frsq d a) s fun s t => s.result t d (rsqF32 (s.name t a))
/-- R260: FEXP2. -/
def execFexp2 (d a : Name) (s : State) : Host.Outcome State Fault Refusal :=
  issueWord (.fexp2 d a) s fun s t => s.result t d (exp2F32 (s.name t a))
/-- R260: FLOG2. -/
def execFlog2 (d a : Name) (s : State) : Host.Outcome State Fault Refusal :=
  issueWord (.flog2 d a) s fun s t => s.result t d (log2F32 (s.name t a))

/-- The comparison of condition code c on two FP32 words (R261). -/
def floatCond (c : BitVec 3) (a b : Word) : Bool :=
  let x := f32 a
  let y := f32 b
  let unordered := x.isNan || y.isNan
  match c.toNat with
  | 0 => !unordered && !x.lt y && !y.lt x
  | 1 => unordered || x.lt y || y.lt x
  | 2 => x.lt y
  | 3 => !unordered && !y.lt x
  | 4 => y.lt x
  | 5 => !unordered && !x.lt y
  | 6 => unordered
  | _ => !unordered

/-- R261: FCMP. -/
def execFcmp (c p : BitVec 3) (a b : Name) (s : State) : Host.Outcome State Fault Refusal :=
  issueWord (.fcmp c p a b) s fun s t => s.resultPred t p (floatCond c (s.name t a) (s.name t b))

/-! ## Conversions (R262 to R265) -/

/-- Bits of the narrow elements of a conversion code; 32 when neither side is narrow (R242, R263). -/
def cvtWidth (k : BitVec 4) : Nat :=
  match k.toNat with
  | 0 => 16 | 1 => 16 | 2 => 8 | 3 => 8 | 4 => 4 | 7 => 16 | 8 => 8
  | 11 => 16 | 12 => 16 | 13 => 8 | 14 => 8 | 15 => 4 | _ => 32

/-- Replaces element j of n bits of a word (R242, R264). -/
def setElem (w : Word) (n j v : Nat) : Word :=
  let low := 2 ^ (n * j)
  BitVec.ofNat 32 (w.toNat - (w.toNat / low % 2 ^ n) * low + (v % 2 ^ n) * low)
/-- Element j of n bits of a word. -/
def getElem (w : Word) (n j : Nat) : Nat := w.toNat / 2 ^ (n * j) % 2 ^ n

/-- The exact source value of a conversion (R264). -/
def cvtSource (k : BitVec 4) (a : Word) (j : Nat) : FVal :=
  match k.toNat with
  | 9 => FVal.ofInt a.toInt
  | 10 => FVal.ofInt a.toNat
  | 11 => bf16.value (getElem a 16 j)
  | 12 => fp16.value (getElem a 16 j)
  | 13 => e4m3.value (getElem a 8 j)
  | 14 => e5m2.value (getElem a 8 j)
  | 15 => e2m1.value (getElem a 4 j)
  | _ => f32 a

/-- The target pattern of a conversion and the saturation flag it sets (R245, R246, R264). -/
def cvtTarget (k : BitVec 4) (m : Mode) (saturating : Bool) (x : FVal) : Nat × Bool :=
  let int (r : Int × Bool) : Nat × Bool := ((BitVec.ofInt 32 r.1).toNat, r.2)
  match k.toNat with
  | 0 => bf16.round m saturating x
  | 1 => fp16.round m saturating x
  | 2 => e4m3.round m saturating x
  | 3 => e5m2.round m saturating x
  | 4 => e2m1.round m saturating x
  | 5 => int (x.toRange m (-2147483648) 2147483647)
  | 6 => int (x.toRange m 0 4294967295)
  | 7 => int (x.toRange m (-32768) 32767)
  | 8 => int (x.toRange m (-128) 127)
  | _ => fp32.round m false x

/-- The effect of a conversion (R264). -/
def State.convert (s : State) (t : Thread) (m : Mode) (saturating : Bool) (d a : Name) (k : BitVec 4)
    (j : BitVec 3) : State :=
  let (r, flag) := cvtTarget k m saturating (cvtSource k (s.name t a) j.toNat)
  let w := if cvtIntoElement k then setElem (s.name t d) (cvtWidth k) j.toNat r else BitVec.ofNat 32 r
  s.resultSat t d w flag

/-- R264: CVT. -/
def execCvt (m : BitVec 2) (d a : Name) (k : BitVec 4) (j : BitVec 3) (s : State) :
    Host.Outcome State Fault Refusal :=
  issueWord (.cvt m d a k j) s fun s t => s.convert t (Mode.ofBits m) false d a k j
/-- R264: CVTS takes the saturating outcome. -/
def execCvts (m : BitVec 2) (d a : Name) (k : BitVec 4) (j : BitVec 3) (s : State) :
    Host.Outcome State Fault Refusal :=
  issueWord (.cvts m d a k j) s fun s t => s.convert t (Mode.ofBits m) true d a k j
/-- R247, R264: CVTT rounds toward zero. -/
def execCvtt (d a : Name) (k : BitVec 4) (j : BitVec 3) (s : State) : Host.Outcome State Fault Refusal :=
  issueWord (.cvtt d a k j) s fun s t => s.convert t .rz false d a k j

/-- The block scale of a largest magnitude under a band scale, with the flag (R265). -/
def blockScale (largest : FVal) (band : Nat) : Nat × Bool :=
  let magnitude : FVal := match largest with
    | .nan => .nan
    | .inf _ => .inf false
    | .fin _ a b => .fin false a b
  let q : FVal := match bf16.value band with
    | .fin _ 0 _ => .nan
    | v => magnitude.div ((FVal.fin false 6 1).mul v)
  e3m5.round .ru true q

/-- R265: BSCALE. -/
def execBscale (j : BitVec 2) (d a b : Name) (s : State) : Host.Outcome State Fault Refusal :=
  issueWord (.bscale j d a b) s fun s t =>
    let (r, flag) := blockScale (f32 (s.name t a)) (half (s.name t b) 0)
    s.resultSat t d (setElem (s.name t d) 8 j.toNat r) flag

/-! ## Packed integers (R266 to R268) -/

/-- The signed 16-bit element j of a word. -/
def shalf (w : Word) (j : Nat) : Int := (BitVec.ofNat 16 (half w j)).toInt
/-- The quotient x / 2^n rounded to the nearest integer, ties to even (R267). -/
def rneShift (x : Int) (n : Nat) : Int :=
  let q : Int := roundQuot .rn (decide (x < 0)) x.natAbs (2 ^ n)
  if x < 0 then -q else q
/-- A word of two signed 16-bit elements. -/
def pack16 (x0 x1 : Int) : Word := BitVec.ofInt 16 x1 ++ BitVec.ofInt 16 x0

/-- An operation on both signed elements with 16-bit saturation (R267). -/
def State.packed (s : State) (t : Thread) (d a b : Name) (op : Int → Int → Int) : State :=
  let x := s.name t a
  let y := s.name t b
  let (r0, c0) := satSigned 16 (op (shalf x 0) (shalf y 0))
  let (r1, c1) := satSigned 16 (op (shalf x 1) (shalf y 1))
  s.resultSat t d (pack16 r0 r1) (c0 || c1)

/-- R267: PADD16S. -/
def execPadd16s (d a b : Name) (s : State) : Host.Outcome State Fault Refusal :=
  issueWord (.padd16s d a b) s fun s t => s.packed t d a b fun x y => x + y
/-- R267: PSUB16S. -/
def execPsub16s (d a b : Name) (s : State) : Host.Outcome State Fault Refusal :=
  issueWord (.psub16s d a b) s fun s t => s.packed t d a b fun x y => x - y
/-- R267: PMUL16, the Q15 product. -/
def execPmul16 (d a b : Name) (s : State) : Host.Outcome State Fault Refusal :=
  issueWord (.pmul16 d a b) s fun s t => s.packed t d a b fun x y => rneShift (x * y) 15
/-- R267: PMAX16. -/
def execPmax16 (d a b : Name) (s : State) : Host.Outcome State Fault Refusal :=
  issueWord (.pmax16 d a b) s fun s t => s.packed t d a b fun x y => if x < y then y else x
/-- R267: PMIN16. -/
def execPmin16 (d a b : Name) (s : State) : Host.Outcome State Fault Refusal :=
  issueWord (.pmin16 d a b) s fun s t => s.packed t d a b fun x y => if x < y then x else y
/-- R267: PMAC16, one exact sum and one clamp. -/
def execPmac16 (d a b : Name) (s : State) : Host.Outcome State Fault Refusal :=
  issueWord (.pmac16 d a b) s fun s t =>
    let x := s.name t a
    let y := s.name t b
    let (r, c) := satSigned 32 ((s.name t d).toInt + shalf x 0 * shalf y 0 + shalf x 1 * shalf y 1)
    s.resultSat t d (BitVec.ofInt 32 r) c

/-- The effect of SHRRS: a rounded shift, then a clamp (R267). -/
def State.shiftRound (s : State) (t : Thread) (d a b : Name) (clamp : Int → Int × Bool) : State :=
  let (r, c) := clamp (rneShift (s.name t a).toInt ((s.name t b).toNat % 32))
  s.resultSat t d (BitVec.ofInt 32 r) c

/-- R267: SHRRS.s16. -/
def execShrrsS16 (d a b : Name) (s : State) : Host.Outcome State Fault Refusal :=
  issueWord (.shrrsS16 d a b) s fun s t => s.shiftRound t d a b (satSigned 16)
/-- R267: SHRRS.s8. -/
def execShrrsS8 (d a b : Name) (s : State) : Host.Outcome State Fault Refusal :=
  issueWord (.shrrsS8 d a b) s fun s t => s.shiftRound t d a b (satSigned 8)
/-- R267: SHRRS.n8. -/
def execShrrsN8 (d a b : Name) (s : State) : Host.Outcome State Fault Refusal :=
  issueWord (.shrrsN8 d a b) s fun s t => s.shiftRound t d a b (satUnsigned 8)
/-- R268: SATRD. -/
def execSatrd (d : Name) (s : State) : Host.Outcome State Fault Refusal :=
  issueWord (.satrd d) s fun s t => s.result t d (boolWord t.sat)
/-- R268: SATCL. -/
def execSatcl (s : State) : Host.Outcome State Fault Refusal :=
  issueWord .satcl s fun s t => (s.modThread t.uid fun x => { x with sat := false }).finish t.uid

/-! ## Cross-lane operations (R269 to R271) -/

/-- Every thread of a lane set gets its own value, and the word completes for all of them. -/
def State.landEach (s : State) (ts : List Thread) (d : Name) (v : Thread → Word) : State :=
  match ts with
  | [] => s
  | t :: rest => State.landEach (s.result t d (v t)) rest d v

/-- The value that a register of the lane's thread held at the joint issue, when the lane is in the
set. -/
def State.laneValue (s : State) (ts : List Thread) (a : Name) (lane : Int) : Option Word :=
  (ts.find? fun x => (x.lane : Int) == lane).map fun x => s.name x a

/-- R271: SLIDE and SHFL: the value of the source lane, or a fallback register of the lane's own. -/
def crossRead (i : Instr) (d a : Name) (source : State → Thread → Int) (fallback : Name) (s : State) :
    Host.Outcome State Fault Refusal :=
  issueJoint i s (fun _ _ => true) fun s _ ts =>
    s.landEach ts d fun x => (s.laneValue ts a (source s x)).getD (s.name x fallback)

/-- R271: SHFL. -/
def execShfl (d a b : Name) (s : State) : Host.Outcome State Fault Refusal :=
  crossRead (.shfl d a b) d a (fun s x => ((s.name x b).toNat % 64 : Nat)) a s
/-- R271: SLIDE.dn. -/
def execSlideDn (k : BitVec 4) (d a b : Name) (s : State) : Host.Outcome State Fault Refusal :=
  crossRead (.slideDn k d a b) d a (fun _ x => (x.lane : Int) + (k.toNat + 1)) b s
/-- R271: SLIDE.up. -/
def execSlideUp (k : BitVec 4) (d a b : Name) (s : State) : Host.Outcome State Fault Refusal :=
  crossRead (.slideUp k d a b) d a (fun _ x => (x.lane : Int) - (k.toNat + 1)) b s

/-- The combination of a reduction (R270). -/
def reduceOp (o : BitVec 3) (x y : Word) : Word :=
  match o.toNat with
  | 0 => addF32 .rn x y
  | 1 => x + y
  | 2 => maxF32 x y
  | 3 => minF32 x y
  | 4 => if x.slt y then y else x
  | _ => if x.slt y then x else y

/-- The identity of a reduction (R249, R270). -/
def reduceIdentity (o : BitVec 3) : Word :=
  match o.toNat with
  | 0 => 0x80000000
  | 1 => 0
  | 2 => 0xFF800000
  | 3 => 0x7F800000
  | 4 => 0x80000000
  | _ => 0x7FFFFFFF

/-- One level of the tree of R249. -/
def pairUp (op : Word → Word → Word) (l : List Word) : List Word :=
  match l with
  | x :: y :: rest => op x y :: pairUp op rest
  | l => l

/-- The tree of R249 over the 64 positions. -/
def reduceTree (op : Word → Word → Word) (levels : Nat) (l : List Word) : Word :=
  match levels with
  | 0 => l.headD 0
  | n + 1 => reduceTree op n (pairUp op l)

/-- The operands at the 64 positions, the identity where no lane of the set stands (R249). -/
def State.positions (s : State) (ts : List Thread) (a : Name) (o : BitVec 3) : List Word :=
  (List.range 64).map fun (p : Nat) => (s.laneValue ts a (p : Nat)).getD (reduceIdentity o)

/-- The inclusive prefix of R249 up to a position. -/
def scanTo (op : Word → Word → Word) (l : List Word) (p : Nat) : Word :=
  match l.take (p + 1) with
  | [] => 0
  | x :: rest => rest.foldl op x

/-- A result of a reduction: a floating NaN is the canonical one (R240). -/
def reduceResult (o : BitVec 3) (x : Word) : Word :=
  let floats : Bool := [0, 2, 3].contains o.toNat
  if floats && (fp32.value x.toNat).isNan then 0x7FC00000 else x

/-- R271: XRED. -/
def execXred (o : BitVec 3) (d a : Name) (s : State) : Host.Outcome State Fault Refusal :=
  issueJoint (.xred o d a) s (fun _ _ => true) fun s _ ts =>
    s.landEach ts d fun _ => reduceTree (reduceOp o) 6 (s.positions ts a o)
/-- R271: XSCAN (DEDUCED 27). -/
def execXscan (o : BitVec 3) (d a : Name) (s : State) : Host.Outcome State Fault Refusal :=
  issueJoint (.xscan o d a) s (fun _ _ => true) fun s _ ts =>
    s.landEach ts d fun x => reduceResult o (scanTo (reduceOp o) (s.positions ts a o) x.lane)

end Sys2Proof.Machine
end

