-- ==== Sys2Proof/Machine/Dispatch.lean ====
section
/-! DEFINITION. The dispatch table: each instruction, operation and event calls its meaning. -/
namespace Sys2Proof.Machine

open Sys2Proof

def exec (i : Instr) (s : State) : Host.Outcome State Fault Refusal :=
  match i with
  | .nop => Sys2Proof.Machine.execNop s
  | .exit => Sys2Proof.Machine.execExit s
  | .yield => Sys2Proof.Machine.execYield s
  | .bi a b => Sys2Proof.Machine.execBi a b s
  | .calli a b => Sys2Proof.Machine.execCalli a b s
  | .ret a => Sys2Proof.Machine.execRet a s
  | .pause a imm => Sys2Proof.Machine.execPause a imm s
  | .b p o => Sys2Proof.Machine.execB p o s
  | .bn p o => Sys2Proof.Machine.execBn p o s
  | .jmp o => Sys2Proof.Machine.execJmp o s
  | .call o => Sys2Proof.Machine.execCall o s
  | .guard p c => Sys2Proof.Machine.execGuard p c s
  | .guardn p c => Sys2Proof.Machine.execGuardn p c s
  | .crewnew d a => Sys2Proof.Machine.execCrewnew d a s
  | .join d a => Sys2Proof.Machine.execJoin d a s
  | .leave d => Sys2Proof.Machine.execLeave d s
  | .rejoin a => Sys2Proof.Machine.execRejoin a s
  | .crewq d a x => Sys2Proof.Machine.execCrewq d a x s
  | .ballot d a p => Sys2Proof.Machine.execBallot d a p s
  | .frame a b => Sys2Proof.Machine.execFrame a b s
  | .frameend => Sys2Proof.Machine.execFrameend s
  | .fbreak => Sys2Proof.Machine.execFbreak s
  | .gseed x a => Sys2Proof.Machine.execGseed x a s
  | .gcollect d x => Sys2Proof.Machine.execGcollect d x s
  | .gpres p a => Sys2Proof.Machine.execGpres p a s
  | .sguard x c => Sys2Proof.Machine.execSguard x c s
  | .add d a b => Sys2Proof.Machine.execAdd d a b s
  | .sub d a b => Sys2Proof.Machine.execSub d a b s
  | .mul d a b => Sys2Proof.Machine.execMul d a b s
  | .mulh d a b => Sys2Proof.Machine.execMulh d a b s
  | .mulhu d a b => Sys2Proof.Machine.execMulhu d a b s
  | .mulw d a b => Sys2Proof.Machine.execMulw d a b s
  | .div d a b => Sys2Proof.Machine.execDiv d a b s
  | .divu d a b => Sys2Proof.Machine.execDivu d a b s
  | .rem d a b => Sys2Proof.Machine.execRem d a b s
  | .remu d a b => Sys2Proof.Machine.execRemu d a b s
  | .and d a b => Sys2Proof.Machine.execAnd d a b s
  | .or d a b => Sys2Proof.Machine.execOr d a b s
  | .xor d a b => Sys2Proof.Machine.execXor d a b s
  | .andn d a b => Sys2Proof.Machine.execAndn d a b s
  | .shl d a b => Sys2Proof.Machine.execShl d a b s
  | .shr d a b => Sys2Proof.Machine.execShr d a b s
  | .sra d a b => Sys2Proof.Machine.execSra d a b s
  | .rol d a b => Sys2Proof.Machine.execRol d a b s
  | .min d a b => Sys2Proof.Machine.execMin d a b s
  | .max d a b => Sys2Proof.Machine.execMax d a b s
  | .minu d a b => Sys2Proof.Machine.execMinu d a b s
  | .maxu d a b => Sys2Proof.Machine.execMaxu d a b s
  | .clz d a => Sys2Proof.Machine.execClz d a s
  | .popc d a => Sys2Proof.Machine.execPopc d a s
  | .brev d a => Sys2Proof.Machine.execBrev d a s
  | .add64 d a b => Sys2Proof.Machine.execAdd64 d a b s
  | .sub64 d a b => Sys2Proof.Machine.execSub64 d a b s
  | .sel k d a b => Sys2Proof.Machine.execSel k d a b s
  | .cmp c p a b => Sys2Proof.Machine.execCmp c p a b s
  | .addi d a imm => Sys2Proof.Machine.execAddi d a imm s
  | .andi d a imm => Sys2Proof.Machine.execAndi d a imm s
  | .ori d a imm => Sys2Proof.Machine.execOri d a imm s
  | .xori d a imm => Sys2Proof.Machine.execXori d a imm s
  | .shli d a n => Sys2Proof.Machine.execShli d a n s
  | .shri d a n => Sys2Proof.Machine.execShri d a n s
  | .srai d a n => Sys2Proof.Machine.execSrai d a n s
  | .muli d a imm => Sys2Proof.Machine.execMuli d a imm s
  | .li d imm => Sys2Proof.Machine.execLi d imm s
  | .lih d imm => Sys2Proof.Machine.execLih d imm s
  | .cmpi c p a imm => Sys2Proof.Machine.execCmpi c p a imm s
  | .pand d a b => Sys2Proof.Machine.execPand d a b s
  | .por d a b => Sys2Proof.Machine.execPor d a b s
  | .pxor d a b => Sys2Proof.Machine.execPxor d a b s
  | .pnot d a => Sys2Proof.Machine.execPnot d a s
  | .pget d => Sys2Proof.Machine.execPget d s
  | .pset a => Sys2Proof.Machine.execPset a s
  | .wbase a => Sys2Proof.Machine.execWbase a s
  | .wbaseq d => Sys2Proof.Machine.execWbaseq d s
  | .mfs d x => Sys2Proof.Machine.execMfs d x s
  | .mts x b => Sys2Proof.Machine.execMts x b s
  | .ldB d b o => Sys2Proof.Machine.execLdB d b o s
  | .ldBs d b o => Sys2Proof.Machine.execLdBs d b o s
  | .ldH d b o => Sys2Proof.Machine.execLdH d b o s
  | .ldHs d b o => Sys2Proof.Machine.execLdHs d b o s
  | .ldW d b o => Sys2Proof.Machine.execLdW d b o s
  | .ldD d b o => Sys2Proof.Machine.execLdD d b o s
  | .ldQ d b o => Sys2Proof.Machine.execLdQ d b o s
  | .prfm h b o => Sys2Proof.Machine.execPrfm h b o s
  | .stB d b o => Sys2Proof.Machine.execStB d b o s
  | .stH d b o => Sys2Proof.Machine.execStH d b o s
  | .stW d b o => Sys2Proof.Machine.execStW d b o s
  | .stD d b o => Sys2Proof.Machine.execStD d b o s
  | .stQ d b o => Sys2Proof.Machine.execStQ d b o s
  | .ldxB d a b => Sys2Proof.Machine.execLdxB d a b s
  | .ldxBs d a b => Sys2Proof.Machine.execLdxBs d a b s
  | .ldxH d a b => Sys2Proof.Machine.execLdxH d a b s
  | .ldxHs d a b => Sys2Proof.Machine.execLdxHs d a b s
  | .ldxW d a b => Sys2Proof.Machine.execLdxW d a b s
  | .ldxD d a b => Sys2Proof.Machine.execLdxD d a b s
  | .ldxQ d a b => Sys2Proof.Machine.execLdxQ d a b s
  | .stxB d a b => Sys2Proof.Machine.execStxB d a b s
  | .stxH d a b => Sys2Proof.Machine.execStxH d a b s
  | .stxW d a b => Sys2Proof.Machine.execStxW d a b s
  | .stxD d a b => Sys2Proof.Machine.execStxD d a b s
  | .stxQ d a b => Sys2Proof.Machine.execStxQ d a b s
  | .aptest d a => Sys2Proof.Machine.execAptest d a s
  | .apcvtOff d a => Sys2Proof.Machine.execApcvtOff d a s
  | .apcvtLoc d a => Sys2Proof.Machine.execApcvtLoc d a s
  | .apcvtClu d a => Sys2Proof.Machine.execApcvtClu d a s
  | .mapset d a b => Sys2Proof.Machine.execMapset d a b s
  | .maprel a => Sys2Proof.Machine.execMaprel a s
  | .mapflush a => Sys2Proof.Machine.execMapflush a s
  | .mapfill a b => Sys2Proof.Machine.execMapfill a b s
  | .mmovW a b => Sys2Proof.Machine.execMmovW a b s
  | .mswpW a b => Sys2Proof.Machine.execMswpW a b s
  | .aadd d a m => Sys2Proof.Machine.execAadd d a m s
  | .amin d a m => Sys2Proof.Machine.execAmin d a m s
  | .amax d a m => Sys2Proof.Machine.execAmax d a m s
  | .aand d a m => Sys2Proof.Machine.execAand d a m s
  | .aor d a m => Sys2Proof.Machine.execAor d a m s
  | .axor d a m => Sys2Proof.Machine.execAxor d a m s
  | .axchg d a m => Sys2Proof.Machine.execAxchg d a m s
  | .acas d a m => Sys2Proof.Machine.execAcas d a m s
  | .acas64 d a m => Sys2Proof.Machine.execAcas64 d a m s
  | .afadd d a m => Sys2Proof.Machine.execAfadd d a m s
  | .afmax d a m => Sys2Proof.Machine.execAfmax d a m s
  | .phase => Sys2Proof.Machine.execPhase s
  | .fence x y => Sys2Proof.Machine.execFence x y s
  | .tbar t b => Sys2Proof.Machine.execTbar t b s
  | .tbarP t b => Sys2Proof.Machine.execTbarP t b s
  | .tbara d t b => Sys2Proof.Machine.execTbara d t b s
  | .tbaraP d t b => Sys2Proof.Machine.execTbaraP d t b s
  | .tbarw t b => Sys2Proof.Machine.execTbarw t b s
  | .tbarwP t b => Sys2Proof.Machine.execTbarwP t b s
  | .monitor d a => Sys2Proof.Machine.execMonitor d a s
  | .mwaitm d a => Sys2Proof.Machine.execMwaitm d a s
  | .fadd f m d a b => Sys2Proof.Machine.execFadd f m d a b s
  | .fsub f m d a b => Sys2Proof.Machine.execFsub f m d a b s
  | .fmul f m d a b => Sys2Proof.Machine.execFmul f m d a b s
  | .ffma f m d a b => Sys2Proof.Machine.execFfma f m d a b s
  | .fmin f d a b => Sys2Proof.Machine.execFmin f d a b s
  | .fmax f d a b => Sys2Proof.Machine.execFmax f d a b s
  | .fneg f d a => Sys2Proof.Machine.execFneg f d a s
  | .fabs f d a => Sys2Proof.Machine.execFabs f d a s
  | .frcp d a => Sys2Proof.Machine.execFrcp d a s
  | .frsq d a => Sys2Proof.Machine.execFrsq d a s
  | .fexp2 d a => Sys2Proof.Machine.execFexp2 d a s
  | .flog2 d a => Sys2Proof.Machine.execFlog2 d a s
  | .fcmp c p a b => Sys2Proof.Machine.execFcmp c p a b s
  | .cvt m d a k j => Sys2Proof.Machine.execCvt m d a k j s
  | .cvts m d a k j => Sys2Proof.Machine.execCvts m d a k j s
  | .cvtt d a k j => Sys2Proof.Machine.execCvtt d a k j s
  | .bscale j d a b => Sys2Proof.Machine.execBscale j d a b s
  | .padd16s d a b => Sys2Proof.Machine.execPadd16s d a b s
  | .psub16s d a b => Sys2Proof.Machine.execPsub16s d a b s
  | .pmul16 d a b => Sys2Proof.Machine.execPmul16 d a b s
  | .pmax16 d a b => Sys2Proof.Machine.execPmax16 d a b s
  | .pmin16 d a b => Sys2Proof.Machine.execPmin16 d a b s
  | .pmac16 d a b => Sys2Proof.Machine.execPmac16 d a b s
  | .shrrsS16 d a b => Sys2Proof.Machine.execShrrsS16 d a b s
  | .shrrsS8 d a b => Sys2Proof.Machine.execShrrsS8 d a b s
  | .shrrsN8 d a b => Sys2Proof.Machine.execShrrsN8 d a b s
  | .satrd d => Sys2Proof.Machine.execSatrd d s
  | .satcl => Sys2Proof.Machine.execSatcl s
  | .shfl d a b => Sys2Proof.Machine.execShfl d a b s
  | .xred o d a => Sys2Proof.Machine.execXred o d a s
  | .xscan o d a => Sys2Proof.Machine.execXscan o d a s
  | .slideDn k d a b => Sys2Proof.Machine.execSlideDn k d a b s
  | .slideUp k d a b => Sys2Proof.Machine.execSlideUp k d a b s
  | .mcfg d a b => Sys2Proof.Machine.execMcfg d a b s
  | .mrdc d a => Sys2Proof.Machine.execMrdc d a s
  | .mld d a b => Sys2Proof.Machine.execMld d a b s
  | .mst d a b => Sys2Proof.Machine.execMst d a b s
  | .macq d => Sys2Proof.Machine.execMacq d s
  | .mrel => Sys2Proof.Machine.execMrel s
  | .mma a b => Sys2Proof.Machine.execMma a b s
  | .mzero => Sys2Proof.Machine.execMzero s
  | .shiftout d => Sys2Proof.Machine.execShiftout d s
  | .shiftin d => Sys2Proof.Machine.execShiftin d s
  | .accclr d => Sys2Proof.Machine.execAccclr d s
  | .drainqBf16 d a b => Sys2Proof.Machine.execDrainqBf16 d a b s
  | .drainqE4m3 d a b => Sys2Proof.Machine.execDrainqE4m3 d a b s
  | .drainqE5m2 d a b => Sys2Proof.Machine.execDrainqE5m2 d a b s
  | .drainqE2m1 d a b => Sys2Proof.Machine.execDrainqE2m1 d a b s
  | .cpy d a b => Sys2Proof.Machine.execCpy d a b s
  | .cpym d a b => Sys2Proof.Machine.execCpym d a b s
  | .cpyaOut d a b => Sys2Proof.Machine.execCpyaOut d a b s
  | .cpyaIn d a b => Sys2Proof.Machine.execCpyaIn d a b s
  | .cpynPut d a b => Sys2Proof.Machine.execCpynPut d a b s
  | .cpynGet d a b => Sys2Proof.Machine.execCpynGet d a b s
  | .binit a b => Sys2Proof.Machine.execBinit a b s
  | .bexp a b => Sys2Proof.Machine.execBexp a b s
  | .barr a b => Sys2Proof.Machine.execBarr a b s
  | .bwait d a b => Sys2Proof.Machine.execBwait d a b s
  | .btest d a b => Sys2Proof.Machine.execBtest d a b s
  | .stadv d a => Sys2Proof.Machine.execStadv d a s
  | .ringpushClaim d a => Sys2Proof.Machine.execRingpushClaim d a s
  | .ringpushFill a b => Sys2Proof.Machine.execRingpushFill a b s
  | .ringpopTake d a => Sys2Proof.Machine.execRingpopTake d a s
  | .ringpopFree a b => Sys2Proof.Machine.execRingpopFree a b s
  | .ringq d a x => Sys2Proof.Machine.execRingq d a x s
  | .ringsub d a => Sys2Proof.Machine.execRingsub d a s
  | .ringsubIn d a => Sys2Proof.Machine.execRingsubIn d a s
  | .ringsubOut d a => Sys2Proof.Machine.execRingsubOut d a s
  | .spawn d a b => Sys2Proof.Machine.execSpawn d a b s
  | .yput d a b => Sys2Proof.Machine.execYput d a b s
  | .jnew d a => Sys2Proof.Machine.execJnew d a s
  | .jdec d a b => Sys2Proof.Machine.execJdec d a b s
  | .ycancel d a => Sys2Proof.Machine.execYcancel d a s
  | .kvlook d a => Sys2Proof.Machine.execKvlook d a s
  | .kvalloc d a => Sys2Proof.Machine.execKvalloc d a s
  | .kvfree d a => Sys2Proof.Machine.execKvfree d a s
  | .kvshare d a b => Sys2Proof.Machine.execKvshare d a b s
  | .skset a b => Sys2Proof.Machine.execSkset a b s
  | .sieve a b => Sys2Proof.Machine.execSieve a b s
  | .svlist d b => Sys2Proof.Machine.execSvlist d b s
  | .dfopen d a => Sys2Proof.Machine.execDfopen d a s
  | .dfmark d a => Sys2Proof.Machine.execDfmark d a s
  | .dfkeep d a => Sys2Proof.Machine.execDfkeep d a s
  | .dfdrop d a => Sys2Proof.Machine.execDfdrop d a s
  | .dfq d a => Sys2Proof.Machine.execDfq d a s
  | .trap a c => Sys2Proof.Machine.execTrap a c s
  | .rett a => Sys2Proof.Machine.execRett a s
  | .mfx d a => Sys2Proof.Machine.execMfx d a s
  | .mtx a b => Sys2Proof.Machine.execMtx a b s
  | .snap d a => Sys2Proof.Machine.execSnap d a s
  | .bkpt b => Sys2Proof.Machine.execBkpt b s
  | .fltq d => Sys2Proof.Machine.execFltq d s
  | .load => Sys2Proof.Machine.execLoad s
  | .patch => Sys2Proof.Machine.execPatch s
  | .unload => Sys2Proof.Machine.execUnload s
  | .launch => Sys2Proof.Machine.execLaunch s
  | .cancel => Sys2Proof.Machine.execCancel s
  | .usage => Sys2Proof.Machine.execUsage s
  | .attest => Sys2Proof.Machine.execAttest s
  | .status => Sys2Proof.Machine.execStatus s
  | .jsig => Sys2Proof.Machine.execJsig s
  | .move => Sys2Proof.Machine.execMove s
  | .partcfg => Sys2Proof.Machine.execPartcfg s
  | .acctcfg => Sys2Proof.Machine.execAcctcfg s
  | .fwupd => Sys2Proof.Machine.execFwupd s
  | .unknownRequest => Sys2Proof.Machine.execUnknownRequest s
  | .droppedPacket => Sys2Proof.Machine.execDroppedPacket s
  | .rmaPut => Sys2Proof.Machine.execRmaPut s
  | .rmaGet => Sys2Proof.Machine.execRmaGet s
  | .rmaAtomic => Sys2Proof.Machine.execRmaAtomic s
  | .boot => Sys2Proof.Machine.execBoot s
  | .i3cJournalRead => Sys2Proof.Machine.execI3cJournalRead s
  | .i3cFirmwareWrite => Sys2Proof.Machine.execI3cFirmwareWrite s
  | .i3cReset => Sys2Proof.Machine.execI3cReset s
  | .roomReport => Sys2Proof.Machine.execRoomReport s
  | .usageInterval => Sys2Proof.Machine.execUsageInterval s
  | .sectionAdvertise => Sys2Proof.Machine.execSectionAdvertise s
  | .migrationSend => Sys2Proof.Machine.execMigrationSend s
  | .migrationReceive => Sys2Proof.Machine.execMigrationReceive s
  | .migrationReply => Sys2Proof.Machine.execMigrationReply s
  | .jointDecrement => Sys2Proof.Machine.execJointDecrement s
  | .memberRegister => Sys2Proof.Machine.execMemberRegister s
  | .yputRequest => Sys2Proof.Machine.execYputRequest s
  | .cancelMark => Sys2Proof.Machine.execCancelMark s
  | .memberCancelStop => Sys2Proof.Machine.execMemberCancelStop s
  | .dispatch => Sys2Proof.Machine.execDispatch s
  | .redispatch => Sys2Proof.Machine.execRedispatch s
  | .preempt => Sys2Proof.Machine.execPreempt s
  | .memberStop => Sys2Proof.Machine.execMemberStop s
  | .resume => Sys2Proof.Machine.execResume s
  | .regionRestore => Sys2Proof.Machine.execRegionRestore s
  | .runLimit => Sys2Proof.Machine.execRunLimit s
  | .gatheringRelease => Sys2Proof.Machine.execGatheringRelease s
  | .phaseBoundary => Sys2Proof.Machine.execPhaseBoundary s
  | .joinHoldTimeout => Sys2Proof.Machine.execJoinHoldTimeout s
  | .pauseWindowClose => Sys2Proof.Machine.execPauseWindowClose s
  | .coreClockGate => Sys2Proof.Machine.execCoreClockGate s
  | .coreWake => Sys2Proof.Machine.execCoreWake s
  | .wakeEnd => Sys2Proof.Machine.execWakeEnd s
  | .tagBarrierRelease => Sys2Proof.Machine.execTagBarrierRelease s
  | .bentCreate => Sys2Proof.Machine.execBentCreate s
  | .bentRetire => Sys2Proof.Machine.execBentRetire s
  | .asyncTrapTake => Sys2Proof.Machine.execAsyncTrapTake s
  | .pageFaultService => Sys2Proof.Machine.execPageFaultService s
  | .replyLand => Sys2Proof.Machine.execReplyLand s
  | .copyStart => Sys2Proof.Machine.execCopyStart s
  | .copyComplete => Sys2Proof.Machine.execCopyComplete s
  | .copyFailureEnd => Sys2Proof.Machine.execCopyFailureEnd s
  | .scheduleEntryStart => Sys2Proof.Machine.execScheduleEntryStart s
  | .barrierArrival => Sys2Proof.Machine.execBarrierArrival s
  | .mldExecute => Sys2Proof.Machine.execMldExecute s
  | .mstExecute => Sys2Proof.Machine.execMstExecute s
  | .mmaExecute => Sys2Proof.Machine.execMmaExecute s
  | .mzeroExecute => Sys2Proof.Machine.execMzeroExecute s
  | .shiftoutExecute => Sys2Proof.Machine.execShiftoutExecute s
  | .shiftinExecute => Sys2Proof.Machine.execShiftinExecute s
  | .accclrExecute => Sys2Proof.Machine.execAccclrExecute s
  | .drainqExecute => Sys2Proof.Machine.execDrainqExecute s
  | .matrixCommandFailure => Sys2Proof.Machine.execMatrixCommandFailure s
  | .sksetExecute => Sys2Proof.Machine.execSksetExecute s
  | .sieveExecute => Sys2Proof.Machine.execSieveExecute s
  | .sieveCommandFailure => Sys2Proof.Machine.execSieveCommandFailure s
  | .infeedTile => Sys2Proof.Machine.execInfeedTile s
  | .outfeedTile => Sys2Proof.Machine.execOutfeedTile s
  | .mapFillComplete => Sys2Proof.Machine.execMapFillComplete s
  | .mapFillFail => Sys2Proof.Machine.execMapFillFail s
  | .kvUnitStep => Sys2Proof.Machine.execKvUnitStep s
  | .pageEvict => Sys2Proof.Machine.execPageEvict s
  | .pagePromote => Sys2Proof.Machine.execPagePromote s
  | .entryPoison => Sys2Proof.Machine.execEntryPoison s
  | .translationInvalidate => Sys2Proof.Machine.execTranslationInvalidate s
  | .heatSweep => Sys2Proof.Machine.execHeatSweep s
  | .memberQuiesced => Sys2Proof.Machine.execMemberQuiesced s
  | .retireRelease => Sys2Proof.Machine.execRetireRelease s
  | .usageFlashWrite => Sys2Proof.Machine.execUsageFlashWrite s
  | .snapshotNymesque => Sys2Proof.Machine.execSnapshotNymesque s
  | .snapshotCollect => Sys2Proof.Machine.execSnapshotCollect s
  | .powerLoss => Sys2Proof.Machine.execPowerLoss s
  | .linkRetrain => Sys2Proof.Machine.execLinkRetrain s
  | .correctableError => Sys2Proof.Machine.execCorrectableError s
  | .writePerformedAtHome => Sys2Proof.Machine.execWritePerformedAtHome s
  | .translationWalkEnd => Sys2Proof.Machine.execTranslationWalkEnd s
  | .tagBarrierArrival => Sys2Proof.Machine.execTagBarrierArrival s

end Sys2Proof.Machine
end

