-- ==== Sys2Proof/Machine/Step.lean ====
section
/-! DEFINITION. One step: time passes, and the next action happens: a thread is given an issue slot, an event
happens with its input, a byte of memory comes to hold an uncorrectable error (R214), or a race that is to come leaves
what a byte holds unbounded (R372). With nothing left to happen, a device that has not started boots (R28) and any other
is idle. -/
namespace Sys2Proof.Machine

open Sys2Proof

/-- An event happens with its input; a word of a program is no event. -/
def runEvent (e : Instr) (input : Input) (s : State) : Host.Outcome State Fault Refusal :=
  if e.isWord then .next s else exec e { s with input := input, cur := none }

/-- A thread is given an issue slot. -/
def runSlot (u : Nat) (s : State) : Host.Outcome State Fault Refusal :=
  match s.issueSlot u with
  | .settled s' => .next s'
  | .run i s' => exec i s'

/-- The next action of the agenda, once time has passed (DESIGN CHOICE 1). -/
def act (s : State) : Host.Outcome State Fault Refusal :=
  match s.agenda with
  | .issue u :: rest => runSlot u { s with agenda := rest }
  | .event e input :: rest => runEvent e input { s with agenda := rest }
  | .error l :: rest => .next ({ s with agenda := rest }.errorAt l)
  | .race l u :: rest => .next ({ s with agenda := rest }.foretell l u)
  | [] =>
    match s.nym.sill with
    | .off => runEvent .boot .none s
    | _ => .next s

/-- One step. -/
def step (s : State) : Host.Outcome State Fault Refusal := act s.elapse

/-- The state with one instruction's bits stored where the next step fetches it. -/
def State.withFetchWord (s : State) (nbits w : Nat) : State := s.placeWord (tableWord nbits w)

end Sys2Proof.Machine
end

