-- ==== Sys2Proof/Safety.lean ====
section
/-! DEFINITION. What claims about the H9 are stated in: when a word issues, what a word that only writes
registers leaves alone, and the canonical form that every step keeps. -/
namespace Sys2Proof.Machine

open Sys2Proof

/-- Thread `t` is the one that issues, word `i` passes every check of R95 for it, and no operand of the
word is still due (R122, R170). -/
structure Issues (s : State) (t : Thread) (i : Instr) : Prop where
  thread : s.curThread? = some t
  checks : s.issueCause t i = none
  operands : s.operandsWait t i = false

/-- R162, R165: the truth of a condition code on two words. -/
def condHolds (c : BitVec 3) (x y : Word) : Prop :=
  (c = 0 ∧ x = y) ∨ (c = 1 ∧ x ≠ y) ∨ (c = 2 ∧ x.toInt < y.toInt) ∨ (c = 3 ∧ y.toInt ≤ x.toInt) ∨
    (c = 4 ∧ x.toNat < y.toNat) ∨ (c = 5 ∧ y.toNat ≤ x.toNat) ∨ (c = 6 ∧ x.toInt ≤ y.toInt) ∨
    (c = 7 ∧ y.toInt < x.toInt)

/-- The access of a load: its address, size, sign and destinations (R220, R222, R223). -/
def loadOf (s : State) (t : Thread) (d : Name) (addr : DWord) (size : Nat) (signed : Bool) : MemOp :=
  .load addr size signed (if size = 16 then s.blockSlots t d 4 else if size = 8 then s.pairSlots t d
    else [s.slotOf t d])

/-- The access of a store: its address and the bytes of its data names, low byte first; a field of 0 gives
zeros (R5, R222, R223). -/
def storeOf (s : State) (t : Thread) (d : Name) (addr : DWord) (size : Nat) : MemOp :=
  .store addr ((List.range size).map fun i =>
    if d = 0 then 0 else (s.name t (d + BitVec.ofNat 7 (i / 4))).extractLsb' (8 * (i % 4)) 8)

/-- The access of an atomic with one operand word (R377, R379). -/
def atomOf (s : State) (t : Thread) (k : AtomKind) (d a : Name) (m : AtomMod) : MemOp :=
  .atomic (s.addrPair t a) k ((s.name t d).setWidth 64) 0 m [s.slotOf t d]

/-- What a path T word asks for: the operation with its addresses and operands (R89, R142, R222, R223, R224,
R377, R386). -/
def asks (s : State) (t : Thread) (i : Instr) : Option MemOp :=
  let disp (b : Name) (o : BitVec 10) (size : Nat) : DWord :=
    s.addrPair t b + o.signExtend 64 * BitVec.ofNat 64 size
  let index (a b : Name) (size : Nat) : DWord :=
    s.addrPair t a + (s.name t b).setWidth 64 * BitVec.ofNat 64 size
  match i with
  | .ldB d b o => some (loadOf s t d (disp b o 1) 1 false)
  | .ldBs d b o => some (loadOf s t d (disp b o 1) 1 true)
  | .ldH d b o => some (loadOf s t d (disp b o 2) 2 false)
  | .ldHs d b o => some (loadOf s t d (disp b o 2) 2 true)
  | .ldW d b o => some (loadOf s t d (disp b o 4) 4 false)
  | .ldD d b o => some (loadOf s t d (disp b o 8) 8 false)
  | .ldQ d b o => some (loadOf s t d (disp b o 16) 16 false)
  | .ldxB d a b => some (loadOf s t d (index a b 1) 1 false)
  | .ldxBs d a b => some (loadOf s t d (index a b 1) 1 true)
  | .ldxH d a b => some (loadOf s t d (index a b 2) 2 false)
  | .ldxHs d a b => some (loadOf s t d (index a b 2) 2 true)
  | .ldxW d a b => some (loadOf s t d (index a b 4) 4 false)
  | .ldxD d a b => some (loadOf s t d (index a b 8) 8 false)
  | .ldxQ d a b => some (loadOf s t d (index a b 16) 16 false)
  | .stB d b o => some (storeOf s t d (disp b o 1) 1)
  | .stH d b o => some (storeOf s t d (disp b o 2) 2)
  | .stW d b o => some (storeOf s t d (disp b o 4) 4)
  | .stD d b o => some (storeOf s t d (disp b o 8) 8)
  | .stQ d b o => some (storeOf s t d (disp b o 16) 16)
  | .stxB d a b => some (storeOf s t d (index a b 1) 1)
  | .stxH d a b => some (storeOf s t d (index a b 2) 2)
  | .stxW d a b => some (storeOf s t d (index a b 4) 4)
  | .stxD d a b => some (storeOf s t d (index a b 8) 8)
  | .stxQ d a b => some (storeOf s t d (index a b 16) 16)
  | .aadd d a m => some (atomOf s t .add d a m)
  | .amin d a m => some (atomOf s t .smin d a m)
  | .amax d a m => some (atomOf s t .smax d a m)
  | .aand d a m => some (atomOf s t .band d a m)
  | .aor d a m => some (atomOf s t .bor d a m)
  | .axor d a m => some (atomOf s t .bxor d a m)
  | .axchg d a m => some (atomOf s t .xchg d a m)
  | .afadd d a m => some (atomOf s t .fadd d a m)
  | .afmax d a m => some (atomOf s t .fmax d a m)
  | .acas d a m => some (.atomic (s.addrPair t a) .cas
      ((s.name t (d + 1)).setWidth 64) ((s.name t d).setWidth 64) m [s.slotOf t d])
  | .acas64 d a m => some (.atomic (s.addrPair t a) .cas64 (s.pair t (d + 2)) (s.pair t d) m (s.pairSlots t d))
  | .mmovW a b => some (.mmov (s.addrPair t a) (s.addrPair t b))
  | .mswpW a b => some (.mswp (s.addrPair t a) (s.addrPair t b))
  | .monitor d a => some (.monitor (s.addrPair t a) [s.slotOf t d])
  | .bi a b => if (s.addrPair t a).toNat % 4 = 0 then some (.table (s.addrPair t a) (s.name t b) false) else none
  | .calli a b => if (s.addrPair t a).toNat % 4 = 0 then some (.table (s.addrPair t a) (s.name t b) true) else none
  | _ => none

/-- A thread may make an access now: its member runs, no fence of its own holds it (R368), and an access
that acts at once comes after its earlier ones (R357). -/
structure MayAccess (s : State) (t : Thread) (m : Member) (op : MemOp) : Prop where
  member : s.member? t.member = some m
  running : m.st = .running
  here : m.divert = none
  fences : s.allDone (t.fenced .t) = true
  order : op.direct = false ∨ s.settled (s.nextClk t.uid) = true

/-- An access to a scratchpad passes its checks, at a location (R202, R217). -/
structure PassesLocal (s : State) (m : Member) (n : Need) (l : Loc) : Prop where
  target : ∃ o off, s.target m n.addr n.size = .ok (.scratch o off)
  check : s.check m n = .pass l none

/-- Thread `t` is the one that issues, word `i` passes its checks, no thread of the crew is held at the word, and
every thread of the lane set has its operands: once its label is met, the word issues jointly for the threads `ts`
(R129, R269, R276). -/
structure IssuesJointly (s : State) (t : Thread) (i : Instr) (ts : List Thread) : Prop where
  thread : s.curThread? = some t
  checks : s.issueCause t i = none
  lanes : ts = (s.releaseLabel t.crew t.pc).laneSet t i
  ready : s.jointReady t i = true

/-- The state in which a word has issued jointly: the threads that its join label would have held at the word are
released, and it has issued for each thread of the set (R129, R269). -/
abbrev State.jointly (s : State) (t : Thread) (i : Instr) (ts : List Thread) : State :=
  (s.releaseLabel t.crew t.pc).beginAll i ts

/-- A thread but for what it knows of the accesses of others. -/
def Thread.unclocked (t : Thread) : Thread := { t with clk := [], issued := [], fenceClk := [], stageClk := [] }

/-- A core but for its waking and for what its queued commands follow. -/
def Core.unclocked (c : Core) : Core :=
  { c with
    wakeAt := none
    mq := c.mq.map fun q => { q with clk := [] }
    sq := c.sq.map fun q => { q with clk := [] } }

/-- The cause and the address of the first check that fails, of checks in the order in which a rule makes them. -/
def firstFailed (checks : List (Bool × Nat × DWord)) : Option (Nat × DWord) := (checks.find? (·.1)).map (·.2)

/-- The checks of the first and the last byte of a region of `n` bytes, up to translation (R202). -/
def State.edgeChecks (s : State) (m : Member) (addr : DWord) (n : Nat) : List (Bool × Nat × DWord) :=
  [addr, addr + BitVec.ofNat 64 (n - 1)].map fun x =>
    match s.target m x 1 with
    | .error c => (true, c, x)
    | .ok _ => (false, 0, x)

/-- A barrier word breaks R281: a reserved bit, an offset that is no multiple of 16, or one without an arrival. -/
def brokenBarrierWord (w : Word) : Bool :=
  w.extractLsb' 24 7 != 0 || (if w.getLsbD 31 then w.toNat % 16 != 0 else w.extractLsb' 0 24 != 0)

/-- The magnitude that a pattern below the sign bit stands for, its exponent unbounded above (R238, R245). -/
def Fmt.magnitude (f : Fmt) (code : Nat) : ℚ :=
  if code < 2 ^ f.fbits then (code : ℚ) * 2 ^ (1 - (f.bias : Int) - f.fbits)
  else ((2 ^ f.fbits + code % 2 ^ f.fbits : Nat) : ℚ) * 2 ^ (((code / 2 ^ f.fbits : Nat) : Int) - f.bias - f.fbits)

/-- The number that a finite value is. -/
def FVal.ratio (x : FVal) : Option ℚ :=
  match x with
  | .fin neg a b => if b = 0 then none else some (if neg then -((a : ℚ) / b) else (a : ℚ) / b)
  | _ => none

/-- Signed saturation to a range (R243). -/
def clampTo (lo hi x : Int) : Int := if x < lo then lo else if hi < x then hi else x

/-- A result that was clamped to a range, with the sticky flag when it was (R174, R243). -/
def clamped (s : State) (t : Thread) (d : Name) (v : Word) (hit : Bool) : State :=
  if hit then (s.modThread t.uid fun x => { x with sat := true }).result t d v else s.result t d v

/-- A barrier after an update: the flip rule (R304). -/
def afterFlip (e a : Nat) (status : Word) (p : Nat) : Barrier :=
  if 0 < e ∧ e ≤ a then ⟨0, a - e, status ^^^ 0x80000000, p⟩ else ⟨e, a, status, p⟩

/-- Every member's scratchpad is in canonical form. -/
def State.scratchWf (s : State) : Prop := ∀ m ∈ s.members, Memory.wf m.scratch = true

/-- A barrier instruction of a thread reaches its barrier: the barrier lies at `l`, its home takes accesses,
an update comes after the thread's earlier accesses, and no byte of it is lost to an uncorrectable error (R214,
R305, R323, R357). -/
structure ReachesBarrier (s : State) (t : Thread) (addr : DWord) (l : Loc) : Prop where
  loc : ∃ m, s.member? t.member = some m ∧ s.barrierLoc m addr = .ok l
  home : s.homeOpen l = true
  order : s.settled (s.nextClk t.uid) = true
  fences : s.allDone (t.fenced .t) = true
  sound : s.meetsError l 16 = false

/-- A location's home is there: device memory, or the scratchpad of a member, not one cancelled while it was
away (R434). -/
def State.homeThere (s : State) (l : Loc) : Prop :=
  l.space = 0 ∨ ∃ x, s.member? (l.space - 1) = some x ∧ x.isReleased = false

/-- Registers after the words of a reply have landed in them, in order (R436). -/
def landed (ds : List Slot) (ws : List Word) (r : Map 32) : Map 32 :=
  (ds.zip ws).foldl (fun r dw => match dw.1 with
    | .reg j => Map.set r j dw.2
    | _ => r) r

/-- An extent of an engine's accesses for a member lies at a location of a scratchpad, and every piece of it
passes its checks there (R202, R217). -/
def State.landsAt (s : State) (member : Nat) (write : Bool) (addr : DWord) (n : Nat) (l : Loc) : Prop :=
  ∀ pre p rest, piecesOf write addr n = pre ++ p :: rest →
    s.checkPiece member p = .pass (l.plus ((pre.map (·.size)).foldl (· + ·) 0)) none

/-- A byte lies in none of some extents of `n` bytes. -/
def outside (x : Loc) (n : Nat) (ls : List Loc) : Prop :=
  ∀ l ∈ ls, x.space ≠ l.space ∨ x.off < l.off ∨ l.off + n ≤ x.off

/-- Every byte outside `n` bytes at a location is as before. -/
def State.sameOutside (s s' : State) (l : Loc) (n : Nat) : Prop :=
  ∀ x : Loc, x.space ≠ l.space ∨ x.off < l.off ∨ l.off + n ≤ x.off → s'.bytesAt x 1 = s.bytesAt x 1

/-- The words whose effect is a 32-bit or 64-bit result in registers, a predicate or the saturation
flag, from registers, predicates and special registers alone. -/
def registerWord (i : Instr) : Bool :=
  match i with
  | .add _ _ _ => true | .sub _ _ _ => true | .mul _ _ _ => true | .mulh _ _ _ => true
  | .mulhu _ _ _ => true | .mulw _ _ _ => true | .div _ _ _ => true | .divu _ _ _ => true
  | .rem _ _ _ => true | .remu _ _ _ => true | .and _ _ _ => true | .or _ _ _ => true
  | .xor _ _ _ => true | .andn _ _ _ => true | .shl _ _ _ => true | .shr _ _ _ => true
  | .sra _ _ _ => true | .rol _ _ _ => true | .min _ _ _ => true | .max _ _ _ => true
  | .minu _ _ _ => true | .maxu _ _ _ => true | .clz _ _ => true | .popc _ _ => true
  | .brev _ _ => true | .add64 _ _ _ => true | .sub64 _ _ _ => true | .sel _ _ _ _ => true
  | .cmp _ _ _ _ => true | .addi _ _ _ => true | .andi _ _ _ => true | .ori _ _ _ => true
  | .xori _ _ _ => true | .shli _ _ _ => true | .shri _ _ _ => true | .srai _ _ _ => true
  | .muli _ _ _ => true | .li _ _ => true | .lih _ _ => true | .cmpi _ _ _ _ => true
  | .pand _ _ _ => true | .por _ _ _ => true | .pxor _ _ _ => true | .pnot _ _ => true
  | .pget _ => true | .pset _ => true | .wbaseq _ => true | .mfs _ _ => true | .mts _ _ => true
  | .aptest _ _ => true | .apcvtOff _ _ => true | .apcvtLoc _ _ => true | .apcvtClu _ _ => true
  | .fadd _ _ _ _ _ => true | .fsub _ _ _ _ _ => true | .fmul _ _ _ _ _ => true
  | .ffma _ _ _ _ _ => true | .fmin _ _ _ _ => true | .fmax _ _ _ _ => true | .fneg _ _ _ => true
  | .fabs _ _ _ => true | .frcp _ _ => true | .frsq _ _ => true | .fexp2 _ _ => true
  | .flog2 _ _ => true | .fcmp _ _ _ _ => true | .cvt _ _ _ _ _ => true | .cvts _ _ _ _ _ => true
  | .cvtt _ _ _ _ => true | .bscale _ _ _ _ => true | .padd16s _ _ _ => true
  | .psub16s _ _ _ => true | .pmul16 _ _ _ => true | .pmax16 _ _ _ => true | .pmin16 _ _ _ => true
  | .pmac16 _ _ _ => true | .shrrsS16 _ _ _ => true | .shrrsS8 _ _ _ => true
  | .shrrsN8 _ _ _ => true | .satrd _ => true | .satcl => true
  | _ => false

/-- A request of a kind, 0 for the unknown ones, arrives at an endpoint while Nymesque runs: its partition is known
(0 for the operator's endpoint), and its identifier has not been seen (R36, R37, R39). -/
structure Arrives (s : State) (kind : Byte) (h : ReqHdr) (p : Payload) (part : Nat) : Prop where
  input : s.requestFor kind = some (h, p)
  running : s.nym.sill = .running
  owner : if h.ep = 0 then (s.endpointPart 0).getD 0 = part else s.endpointPart h.ep = some part
  fresh : ∀ x ∈ s.nym.seen, x.ep = h.ep → x.reqid ≠ h.reqid

/-- The predicates that a word may write (R158, R164, R165). -/
def writesPred (i : Instr) (k : BitVec 3) : Bool :=
  match i with
  | .cmp _ p _ _ => p == k
  | .cmpi _ p _ _ => p == k
  | .fcmp _ p _ _ => p == k
  | .pand p _ _ => p == k
  | .por p _ _ => p == k
  | .pxor p _ _ => p == k
  | .pnot p _ => p == k
  | .pset _ => true
  | _ => false

/-- Where the results of a word's register fields land (R90 to R92). -/
def State.destinations (s : State) (t : Thread) (i : Instr) : List Slot :=
  (operandsOf i).flatMap fun o => match o with
    | .dst n => [s.slotOf t n]
    | .both n => [s.slotOf t n]
    | .dstPair n => s.pairSlots t n
    | .bothPair n => s.pairSlots t n
    | .dstQuad n => s.blockSlots t n 4
    | .dstBlock n k => s.blockSlots t n k
    | .bothBlock n k => s.blockSlots t n k
    | _ => []

/-- Every memory and every map of the device is in its canonical form: addresses rise, and no entry is what
an unlisted address reads as. -/
structure State.Canonical (s : State) : Prop where
  mem : Memory.wf s.mem = true
  members : ∀ m ∈ s.members, Memory.wf m.scratch = true ∧ Map.wf m.query = true ∧ Map.wf m.accs = true ∧
    Map.wf m.savedCells = true ∧ Map.wf m.tiles = true ∧ Map.wf m.tcfg = true ∧ Map.wf m.tband = true
  threads : ∀ t ∈ s.threads, Map.wf t.regs = true ∧ Map.wf t.seeds = true
  cores : ∀ c ∈ s.cores, Map.wf c.cells = true

/-- The request is answered with a status and nothing else happens (R37 to R39). -/
def Answers (i : Instr) (s : State) (h : ReqHdr) (status : Nat) : Prop :=
  exec i s = .next ((s.noteSeen h).reply h status .empty)

end Sys2Proof.Machine
end

