-- ==== Sys2Proof/Certificates/Slice0/Obligations.lean ====
section
/-! DEFINITION. The statements about the model, for the provers. Each says what the manual says an instruction,
an operation or an event does; the rules it formalises are named in its docstring. -/

open Sys2Proof Sys2Proof.Machine

/-- Reset: the sill complex is off, nothing is loaded, no member, thread or partition is there and every byte
reads 0; the first step is the first start of the device, with boot count 1.

Where it rests on a choice of the model and not on a rule, the choice is log entries 1, 2, 3, 4 and 5. -/
def Obligations.ResetState : Prop :=
  let r := State.reset
  r.nym.sill = .off ∧ r.nym.boots = 0 ∧ r.members = [] ∧ r.threads = [] ∧ r.parts = [] ∧ r.containers = [] ∧
    r.cores = [] ∧ r.flights = [] ∧ r.counters = [] ∧ (∀ a, r.mem.byte a = 0) ∧ r.Canonical ∧
    (∀ n, r.nym.lastEvent n = none) ∧
    step r = exec .boot { r with clock := later 0 (Config.elapsed 0), fresh := 1, cur := none } ∧
    ∃ s' : State, step r = .next s' ∧ s'.nym.boots = 1

/-- Words written out from the encoding tables decode to their instructions; the all-zero word, major 0x1F, an
unassigned func, a reserved guard kind and a reserved bit set do not. -/
def Obligations.DecodeWords : Prop :=
  decode 0x00200000 = .ok .nop ∧                 -- 00000 000001 0000000 0000000 0000000
  decode 0x3820C105 = .ok (.add 3 2 5) ∧         -- 00111 000001 0000011 0000010 0000101
  decode 0x4006_0BFF = .ok (.addi 3 2 0x3FF) ∧   -- 01000 000 0000011 0000010 1111111111
  decode 0x481FFFFF = .ok (.li 3 0x7FFFF) ∧      -- 01001 0 0000011 1111111111111111111
  decode 0x13800010 = .ok (.bn 3 0x10) ∧         -- 00010 011 1 00000000000000000010000
  decode 0x20143000 = .ok (.guard 5 3) ∧         -- 00100 00 0000101 0 00011 000000000000
  decode 0x64060804 = .ok (.ldW 3 2 4) ∧         -- 01100 100 0000011 0000010 0000000100
  decode 0 = .bad 0 ∧ decode 0xF8000001 = .bad 1 ∧ decode 0x38000000 = .bad 2 ∧ decode 0x24000000 = .bad 4 ∧
  decode 0x00200001 = .bad 3

/-- R87, R88, R90, R95: the decoder and the encoder agree on every word that is an instruction, with each field
at each value; no word decodes to an operation or event of the device, or to an instruction with a field out
of range. -/
def Obligations.EncodeDecode : Prop :=
  (∀ i : Instr, i.isWord = true → i.wf = true → decode (encode i) = .ok i) ∧
  (∀ (w : Word) (i : Instr), decode w = .ok i → encode i = w ∧ i.isWord = true ∧ i.wf = true) ∧
  (∀ i : Instr, i.isWord = false → decode (encode i) = .bad 0)

/-- R84, R95, R122, R129, R419: when the thread given an issue slot may issue and the word at its PC decodes,
the step is that word's meaning with that thread current, time having passed; a word that decodes to nothing
traps with its cause, a PC outside the version with cause 0x007. A pending cause is taken where the thread
would issue. A thread at a join label that is not met is held there, but for the first word that a live
prefix covers, which issues in the prefix's slot. A thread that waits issues nothing. An event of the agenda
happens with its input; an uncorrectable error, and a race that is to come, reach their byte.

Where it rests on a choice of the model and not on a rule, the choice is log entries 1, 3, 11 and 77. -/
def Obligations.StepRunsDecoded : Prop :=
  ∀ s : State,
    let now := s.elapse
    now.clock = later s.clock (Config.elapsed s.fresh) ∧ s.clock.toNat ≤ now.clock.toNat ∧
      now = { s with clock := now.clock, fresh := s.fresh + 1, cores := now.cores } ∧
    (∀ (t : Thread) (m : Member) (rest : List Action), s.agenda = .issue t.uid :: rest → s.thread? t.uid = some t →
      s.member? t.member = some m → m.st = .running → m.stop = .none → m.divert = none →
      (s.core t.core).gated = false →
      let s1 := { now with agenda := rest }
      let s2 := s1.firstIssue t
      let takes := t.wait.atWord = true ∧ t.busy = false ∧ t.pendq ≠ []
      let unmet := ∃ x ∈ s.threads, x.crew = t.crew ∧ x.join = some t.pc ∧ x.pc ≠ t.pc
      (t.wait.atWord = true ∨ t.wait = .word → ¬takes → t.join ≠ some t.pc →
        (∀ w, (s.wordsOf t)[t.pc.toNat]? = some w →
          (∀ i, decode w = .ok i → step s = exec i { s2 with cur := some t.uid }) ∧
          (∀ c, decode w = .bad c → c < 3 → step s = .next (s2.trap t.uid c 0)) ∧
          (∀ c, decode w = .bad c → 3 ≤ c → step s = .next (s2.trap t.uid ((s2.wordCause t w).getD c) 0))) ∧
        ((s.wordsOf t)[t.pc.toNat]? = none → step s = .next (s2.trap t.uid 0x007 (t.pc.setWidth 64)))) ∧
      (takes → s1.isReady t = true → step s = .next (s1.trapPending t.uid)) ∧
      (takes → s1.isReady t = false → (t.wait = .none → t.join = some t.pc → ¬unmet) → step s = .next s1) ∧
      (takes → s1.isReady t = false → t.wait = .none → t.join = some t.pc → unmet →
        step s = .next (s1.setWait t.uid (.held s1.clock))) ∧
      (t.wait.atWord = true → ¬takes → t.join = some t.pc →
        (unmet → t.wait = .none → step s = .next (s2.setWait t.uid (.held s1.clock))) ∧
        ∀ w i, (s.wordsOf t)[t.pc.toNat]? = some w → decode w = .ok i →
          (unmet → t.wait ≠ .none → step s = exec i { s2 with cur := some t.uid }) ∧
          (¬unmet → step s = exec i { s2.releaseLabel t.crew t.pc with cur := some t.uid })) ∧
      (t.wait.slotOpen = false → step s = .next s1)) ∧
    (∀ (e : Instr) (x : Input) (rest : List Action), s.agenda = .event e x :: rest → e.isWord = false →
      step s = exec e { now with agenda := rest, input := x, cur := none }) ∧
    (∀ (l : Loc) (rest : List Action), s.agenda = .error l :: rest →
      step s = .next ({ now with agenda := rest }.errorAt l)) ∧
    (∀ (l : Loc) (agent : Nat) (rest : List Action), s.agenda = .race l agent :: rest →
      step s = .next ({ now with agenda := rest }.foretell l agent)) ∧
    (s.agenda = [] → s.nym.sill ≠ .off → step s = .next now)

/-- Nothing stops the device: every instruction word of a current thread and every operation or event has a next
state, and so has every step.

Where it rests on a choice of the model and not on a rule, the choice is log entries 26 and 29. -/
def Obligations.NothingStops : Prop :=
  (∀ (i : Instr) (s : State), i.isWord = false ∨ s.curThread?.isSome = true → ∃ s' : State, exec i s = .next s') ∧
  ∀ s : State, ∃ s' : State, step s = .next s'

/-- Every step keeps every memory and map of the device in canonical form.

Where it rests on a choice of the model and not on a rule, the choice is log entry 2. -/
def Obligations.CanonicalKept : Prop :=
  ∀ s s' : State, s.Canonical → step s = .next s' → s'.Canonical

/-- R84, R90 to R93, R170, R171: a word that only computes on registers completes and leaves everything else as
it was: memory, scratchpads, accesses, copies, barriers' arrivals, crews, engines and other threads, the
trap registers, and each register and predicate that is not its destination. Frames too, unless its
destination is a girt name.

Where it rests on a choice of the model and not on a rule, the choice is log entry 12. -/
def Obligations.RegisterFrame : Prop :=
  ∀ (s : State) (t : Thread) (i : Instr), Issues s t i → registerWord i = true →
    ∃ s' : State, ∃ t' : Thread, exec i s = .next s' ∧ s'.thread? t.uid = some t' ∧ t'.pc = t.pc + 1 ∧ t'.wait = .none ∧
      s'.mem = s.mem ∧ s'.flights = s.flights ∧ s'.copies = s.copies ∧ s'.arrivals = s.arrivals ∧
      s'.crews = s.crews ∧ s'.cores = s.cores ∧ s'.counters = s.counters ∧ s'.nym = s.nym ∧ s'.parts = s.parts ∧
      s'.members.map (fun m => { m with issue := 0 }) = s.members.map (fun m => { m with issue := 0 }) ∧
      (∀ u, u ≠ t.uid → s'.thread? u = s.thread? u) ∧
      (∀ k, Slot.reg k ∉ s.destinations t i → Map.get t'.regs k = Map.get t.regs k) ∧
      (∀ k : BitVec 3, writesPred i k = false ∨ k = 0 → t'.pred k = t.pred k) ∧
      ((∀ f k g l, Slot.girt f k g l ∉ s.destinations t i) → s'.frames = s.frames) ∧
      (t'.xpc, t'.xaddr, t'.xcause, t'.xstat, t'.busy, t'.wb) = (t.xpc, t.xaddr, t.xcause, t.xstat, t.busy, t.wb) ∧
      (t'.seeds, t'.marks, t'.monitor, t'.join, t'.pendq, t'.pause) =
        (t.seeds, t.marks, t.monitor, t.join, t.pendq, t.pause)

/-- R156, R157, R158, R159, R160: each two-source word writes its result and completes. -/
def Obligations.IntegerBinaryResults : Prop :=
  ∀ (s : State) (t : Thread) (k : BitVec 3) (d a b : Name),
    let x := s.name t a
    let y := s.name t b
    ∀ r ∈ [
      (Instr.add d a b, x + y), (.sub d a b, x - y), (.mul d a b, x * y),
      (.mulh d a b, BitVec.ofInt 32 (x.toInt * y.toInt / 2 ^ 32)),
      (.mulhu d a b, BitVec.ofNat 32 (x.toNat * y.toNat / 2 ^ 32)),
      (.div d a b, if y = 0 then BitVec.allOnes 32 else x.sdiv y),
      (.divu d a b, if y = 0 then BitVec.allOnes 32 else x / y),
      (.rem d a b, if y = 0 then x else x.srem y), (.remu d a b, if y = 0 then x else x % y),
      (.and d a b, x &&& y), (.or d a b, x ||| y), (.xor d a b, x ^^^ y), (.andn d a b, x &&& ~~~y),
      (.shl d a b, x <<< (y.toNat % 32)), (.shr d a b, x >>> (y.toNat % 32)),
      (.sra d a b, x.sshiftRight (y.toNat % 32)), (.rol d a b, x.rotateLeft (y.toNat % 32)),
      (.min d a b, if x.toInt ≤ y.toInt then x else y), (.max d a b, if x.toInt ≤ y.toInt then y else x),
      (.minu d a b, if x.toNat ≤ y.toNat then x else y), (.maxu d a b, if x.toNat ≤ y.toNat then y else x),
      (.sel k d a b, if k = 0 ∨ t.preds.getLsbD k.toNat then x else y)],
      Issues s t r.1 → exec r.1 s = .next ((s.begin t r.1).result t d r.2)

/-- R159, R163, R164: each word with one register source or none writes its result and completes.

R156, R161, R227: the words that write a pair. -/
def Obligations.IntegerUnaryAndPairResults : Prop :=
  (∀ (s : State) (t : Thread) (d a : Name) (i : BitVec 10) (n : BitVec 5) (c : BitVec 19),
    let x := s.name t a
    let e := i.signExtend 32
    ∀ r ∈ [
      (Instr.clz d a, BitVec.clz x), (.popc d a, BitVec.ofNat 32 ((List.range 32).countP fun j => x.getLsbD j)),
      (.brev d a, x.reverse), (.addi d a i, x + e), (.andi d a i, x &&& e), (.ori d a i, x ||| e),
      (.xori d a i, x ^^^ e), (.muli d a i, x * e), (.shli d a n, x <<< n.toNat),
      (.shri d a n, x >>> n.toNat), (.srai d a n, x.sshiftRight n.toNat), (.li d c, c.signExtend 32),
      (.lih d c, BitVec.ofNat 32 (c.toNat * 2 ^ 13 + (s.name t d).toNat % 2 ^ 13))],
      Issues s t r.1 → exec r.1 s = .next ((s.begin t r.1).result t d r.2)) ∧
  (∀ (s : State) (t : Thread) (d a b : Name),
    ∀ r ∈ [
      (Instr.mulw d a b, BitVec.ofInt 64 ((s.name t a).toInt * (s.name t b).toInt)),
      (.add64 d a b, s.pair t a + s.pair t b), (.sub64 d a b, s.pair t a - s.pair t b)],
      Issues s t r.1 → exec r.1 s = .next ((s.begin t r.1).resultPair t d r.2))

/-- R162, R165, R167, R200: each predicate-writing word writes its predicate and completes; GPRES does so in a
lane of a bent and traps with cause 0x106 elsewhere.

R168: PGET reads p0 as 1 and zeros above p7; PSET writes p1 to p7 and completes. -/
def Obligations.PredicateWords : Prop :=
  ((∀ (s : State) (t : Thread) (c p : BitVec 3) (a b : Name), Issues s t (.cmp c p a b) →
    ∃ v : Bool, (v = true ↔ condHolds c (s.name t a) (s.name t b)) ∧
      exec (.cmp c p a b) s = .next ((s.begin t (.cmp c p a b)).resultPred t p v)) ∧
  (∀ (s : State) (t : Thread) (c p : BitVec 3) (a : Name) (i : BitVec 10), Issues s t (.cmpi c p a i) →
    ∃ v : Bool, (v = true ↔ condHolds c (s.name t a) (i.signExtend 32)) ∧
      exec (.cmpi c p a i) s = .next ((s.begin t (.cmpi c p a i)).resultPred t p v)) ∧
  (∀ (s : State) (t : Thread) (p a b : BitVec 3),
    ∀ r ∈ [(Instr.pand p a b, t.pred a && t.pred b), (.por p a b, t.pred a || t.pred b),
      (.pxor p a b, xor (t.pred a) (t.pred b)), (.pnot p a, !t.pred a)],
      Issues s t r.1 → exec r.1 s = .next ((s.begin t r.1).resultPred t p r.2)) ∧
  (∀ (s : State) (t : Thread) (p : BitVec 3) (a : Name), Issues s t (.gpres p a) →
    exec (.gpres p a) s = .next (if s.inBent t then
      (s.begin t (.gpres p a)).resultPred t p (!s.nameWaits t a)
      else (s.begin t (.gpres p a)).trap t.uid 0x106 0))) ∧
  ((∀ (s : State) (t : Thread) (d : Name), Issues s t (.pget d) →
    ∃ v : Word, exec (.pget d) s = .next ((s.begin t (.pget d)).result t d v) ∧
      ∀ j < 32, v.getLsbD j = (decide (j = 0) || (decide (j < 8) && t.preds.getLsbD j))) ∧
  (∀ (s : State) (t : Thread) (a : Name), Issues s t (.pset a) →
    ∃ ps : BitVec 8, exec (.pset a) s =
        .next ((s.begin t (.pset a)).modThread t.uid fun x => Thread.advance { x with preds := ps }) ∧
      ∀ j < 8, ps.getLsbD j = (decide (j = 0) || (s.name t a).getLsbD j)))

/-- R169: WBASE sets the window base and completes; it traps in a bent and above maxwb. R171: WBASEQ describes
the window.

R172, R173, R174: MFS reads the special registers, `%clock` and `%job` as pairs, in a lane of a bent as
elsewhere, and MTS writes `%sat` and `%mark`; each completes.

Where it rests on a choice of the model and not on a rule, the choice is log entry 104. -/
def Obligations.WindowAndSpecialRegisters : Prop :=
  ((∀ (s : State) (t : Thread) (a : Name), Issues s t (.wbase a) →
    let s1 := s.begin t (.wbase a)
    let maxwb := if 128 ≤ s.allot t then (s.allot t - 128) / 16 else 0
    exec (.wbase a) s = .next (if s.inBent t then s1.trap t.uid 0x125 0
      else if maxwb < (s.name t a).toNat then s1.trap t.uid 0x124 ((s.name t a).setWidth 64)
      else s1.modThread t.uid fun x => Thread.advance { x with wb := (s.name t a).toNat })) ∧
  (∀ (s : State) (t : Thread) (d : Name), Issues s t (.wbaseq d) →
    exec (.wbaseq d) s = .next ((s.begin t (.wbaseq d)).result t d
      (BitVec.ofNat 32 (s.allot t / 16 % 64 * 65536 +
        (if 128 ≤ s.allot t then (s.allot t - 128) / 16 else 0) % 32 * 256 + t.wb % 32))))) ∧
  ((∀ (s : State) (t : Thread) (m : Member) (c : Crew) (d : Name), s.member? t.member = some m →
    s.crew? t.crew = some c →
    (Issues s t (.mfs d 0x0B) →
      exec (.mfs d 0x0B) s = .next ((s.begin t (.mfs d 0x0B)).resultPair t d s.clock)) ∧
    (Issues s t (.mfs d 0x0E) →
      exec (.mfs d 0x0E) s = .next ((s.begin t (.mfs d 0x0E)).resultPair t d m.job)) ∧
    (∀ r ∈ [(0x08#7, (0xFFFFFFFF : Word)), (0x09#7, 0xFFFFFFFF), (0x0A#7, 0)], c.bent = none → Issues s t (.mfs d r.1) →
      exec (.mfs d r.1) s = .next ((s.begin t (.mfs d r.1)).result t d r.2)) ∧
    ∀ r ∈ [(0x00#7, BitVec.ofNat 32 t.tid), (0x01#7, BitVec.ofNat 32 t.core),
      (0x02#7, BitVec.ofNat 32 (if t.core < 192 then t.core / 48 else (t.core - 192) / 8)),
      (0x03#7, if t.core < 192 then BitVec.ofNat 32 (t.core / 4) else 0xFFFFFFFF),
      (0x04#7, if t.core < 192 then BitVec.ofNat 32 (t.core % 4) else 0xFFFFFFFF),
      (0x05#7, c.idWord), (0x06#7, BitVec.ofNat 32 t.lane), (0x07#7, BitVec.ofNat 32 c.width),
      (0x0C#7, BitVec.ofNat 32 m.part),
      (0x0D#7, BitVec.ofNat 32 m.acct), (0x0F#7, BitVec.ofNat 32 m.index),
      (0x10#7, BitVec.ofNat 32 m.version), (0x11#7, if t.sat then 1 else 0),
      (0x12#7, BitVec.ofNat 32 t.wb), (0x13#7, BitVec.ofNat 32 (16 * m.desc.regs)), (0x14#7, t.mark)],
      Issues s t (.mfs d r.1) → exec (.mfs d r.1) s = .next ((s.begin t (.mfs d r.1)).result t d r.2)) ∧
  (∀ (s : State) (t : Thread) (c : Crew) (f : Frame) (k : Nat) (d : Name),
    s.crew? t.crew = some c → c.bent = some (f.fid, k) → s.frame? f.fid = some f →
    ∀ r ∈ [(0x08#7, BitVec.ofNat 32 k), (0x0A#7, BitVec.ofNat 32 f.n),
      (0x09#7, match (t.runs.filter fun r => r.stageKind).getLast? with
        | none => 0xFFFFFFFF
        | some r => BitVec.ofInt 32 ((k : Int) - r.stage))],
      Issues s t (.mfs d r.1) → exec (.mfs d r.1) s = .next ((s.begin t (.mfs d r.1)).result t d r.2)) ∧
  (∀ (s : State) (t : Thread) (b : Name),
    (Issues s t (.mts 0x11 b) → exec (.mts 0x11 b) s = .next ((s.begin t (.mts 0x11 b)).modThread t.uid
      fun x => Thread.advance { x with sat := (s.name t b).getLsbD 0 })) ∧
    (Issues s t (.mts 0x14 b) → exec (.mts 0x14 b) s = .next ((s.begin t (.mts 0x14 b)).modThread t.uid
      fun x => Thread.advance { x with mark := s.name t b }))))

/-- R136, R138, R139: NOP and YIELD change nothing but the PC, and PAUSE opens a pause window of 1 to 65,535
cycles; each completes.

R98, R140, R141, R143: the branches, JMP, CALL and RET: where the PC goes; a taken transfer closes every
open run, one not taken counts as a covered word; CALL writes the return index to name 31. -/
def Obligations.ControlTransfers : Prop :=
  (∀ (s : State) (t : Thread) (a : Name) (i : BitVec 10),
    (Issues s t .nop → exec .nop s = .next ((s.begin t .nop).modThread t.uid Thread.advance)) ∧
    (Issues s t .yield → exec .yield s = .next ((s.begin t .yield).modThread t.uid Thread.advance)) ∧
    (Issues s t (.pause a i) →
      let n := (s.name t a + i.setWidth 32).toNat
      exec (.pause a i) s = .next ((s.begin t (.pause a i)).modThread t.uid fun x => Thread.advance { x with
        pause := some (s.clock + BitVec.ofNat 64 (if n = 0 then 1 else if 65535 < n then 65535 else n))
        hitCloses := false }))) ∧
  (∀ (s : State) (t : Thread) (a : Name) (p : BitVec 3) (o : BitVec 23),
    let go (i : Instr) (target : Word) : State :=
      (s.begin t i).modThread t.uid fun x => { x with pc := target, runs := [], wait := .none }
    let stay (i : Instr) : State := (s.begin t i).modThread t.uid Thread.advance
    (∀ r ∈ [(Instr.b p o, t.pred p), (.bn p o, !t.pred p)], Issues s t r.1 →
      exec r.1 s = .next (if r.2 then go r.1 (t.pc + o.signExtend 32) else stay r.1)) ∧
    (Issues s t (.jmp o) → exec (.jmp o) s = .next (go (.jmp o) (t.pc + o.signExtend 32))) ∧
    (Issues s t (.ret a) → exec (.ret a) s = .next (go (.ret a) (s.name t a))) ∧
    (Issues s t (.call o) → exec (.call o) s = .next (((s.begin t (.call o)).write t.uid
      (.reg (16 * t.wb + 31)) (t.pc + 1)).modThread t.uid fun x =>
        { x with pc := t.pc + o.signExtend 32, runs := [], wait := .none })))

/-- R97, R99, R144, R183: GUARD and GUARDN. A live prefix opens a run over the next c + 1 words, counts as one
covered word of the runs open before, and leaves its slot, which began where the thread stood with the runs
open there, to the first of them; a dead one uses the slot that the live prefixes before it began and skips
its words, they count against the outer run, and a lane of a bent has come to the highest stage of an SGUARD
among them.

R97, R182, R183, R197: SGUARD waits until every lane of the bent before has passed the stage; outside a bent
it traps with cause 0x106. A lane that has passed the stage itself then traps with 0x10A; for one that has
not, the stage is live for an iteration below the trip count, as the bent latched it or latches it now: the
lane comes to the stage, and covers its words when it is live and skips them when it is not.

Where it rests on a choice of the model and not on a rule, the choice is log entry 97. -/
def Obligations.GuardAndStageRuns : Prop :=
  (∀ (s : State) (t : Thread) (p : BitVec 3) (c : BitVec 5),
    ∀ r ∈ [(Instr.guard p c, t.pred p), (.guardn p c, !t.pred p)], Issues s t r.1 →
      (r.2 = true → exec r.1 s = .next ((s.begin t r.1).modThread t.uid fun x => { x with
          pc := x.pc + 1, wait := .covered t.uncover.pc t.uncover.runs t.uncover.reached
          runs := lowerRuns x.runs 1 ++ [⟨false, 0, c.toNat + 1⟩] })) ∧
      (r.2 = false → ∀ g : BitVec 3,
        let skipped := ((s.wordsOf t).drop (t.pc.toNat + 1)).take (c.toNat + 1)
        (∀ w ∈ skipped, ∀ x y, decode w = .ok (.sguard x y) → x.toNat ≤ g.toNat) →
        (g = 0 ∨ ∃ w ∈ skipped, ∃ y, decode w = .ok (.sguard g y)) →
        let base : State := s.begin t r.1
        let noted : State := match s.bentOf t with
          | none => base
          | some (f, k) => base.passStage t f k g.toNat
        exec r.1 s = .next ((noted.modThread t.uid fun x => { x with
          pc := x.pc + 1 + BitVec.ofNat 32 (c.toNat + 1), wait := .none,
          runs := lowerRuns x.runs (1 + (c.toNat + 1)) }).chargeIssue t.member 1))) ∧
  ((∀ (s : State) (t : Thread) (g : BitVec 3) (c : BitVec 5), Issues s t (.sguard g c) → s.bentOf t = none →
    exec (.sguard g c) s = .next ((s.begin t (.sguard g c)).trap t.uid 0x106 0)) ∧
  (∀ (s : State) (t : Thread) (f : Frame) (b : Bent) (k : Nat) (g : BitVec 3) (c : BitVec 5),
    Issues s t (.sguard g c) → s.bentOf t = some (f, k) → (f.bents.find? fun x => x.k == k) = some b →
    let live : Bool := match assoc b.latched g.toNat with
      | some v => v
      | none => decide (g.toNat ≤ k ∧ k < f.n + g.toNat)
    (f.lockstepOpen k g.toNat = false → exec (.sguard g c) s = .next s) ∧
    (f.lockstepOpen k g.toNat = true → g.toNat < t.reached →
      exec (.sguard g c) s = .next ((s.begin t (.sguard g c)).trap t.uid 0x10A (g.setWidth 64))) ∧
    (f.lockstepOpen k g.toNat = true → t.reached ≤ g.toNat →
    ∃ (s' : State) (t' : Thread) (f' : Frame) (b' : Bent), exec (.sguard g c) s = .next s' ∧
      s'.thread? t.uid = some t' ∧ s'.frame? f.fid = some f' ∧ (f'.bents.find? fun x => x.k == k) = some b' ∧
      assoc b'.latched g.toNat = some live ∧ g.toNat ≤ (assoc b'.top t.lane).getD 0 ∧ g.toNat ≤ t'.reached ∧
      (live = true → t'.wait = .covered t.uncover.pc t.uncover.runs t.uncover.reached ∧ t'.pc = t.pc + 1 ∧
        t'.runs = lowerRuns t.runs 1 ++ [⟨true, g.toNat, c.toNat + 1⟩]) ∧
      (live = false → t'.wait = .none ∧ t'.pc = t.pc + 1 + BitVec.ofNat 32 (c.toNat + 1) ∧
        t'.runs = lowerRuns t.runs (1 + (c.toNat + 1))) ∧ t'.regs = t.regs ∧ s'.mem = s.mem)))

/-- R137: EXIT of a thread that is no lane of a bent ends it: no thread has its number afterwards, every other
thread is as before, and its member's memory and the device's memory are unchanged.

R133, R145, R146, R147: CREWNEW, JOIN and LEAVE. Where they succeed a crew is made, or the thread moves to
the lowest free lane of the crew; the result is the crew's id or the lane. A width of 0 or above 64 traps
with cause 0x123, and JOIN and LEAVE in a bent with 0x121. Where no crew can be made the result is 0. JOIN
of no crew, of a bent, of the crew of a running frame or of one without a free lane gives all ones, JOIN of
the thread's own crew its lane, and LEAVE of the only thread of a crew that crew's id; nothing else changes.

R130, R145: a new crew has the width asked for, no thread, and the lowest entry of the core that no crew
holds; its generation follows the entry's last one.

Where it rests on a choice of the model and not on a rule, the choice is log entry 76. -/
def Obligations.ThreadsAndCrews : Prop :=
  (∀ (s : State) (t : Thread), Issues s t .exit → s.bentOf t = none →
    ∃ s' : State, exec .exit s = .next s' ∧ s'.thread? t.uid = none ∧
      (∀ u, u ≠ t.uid → s'.thread? u = s.thread? u) ∧ s'.mem = s.mem ∧
      (∀ m, (s'.member? m).map (·.scratch) = (s.member? m).map (·.scratch)) ∧
      (∀ f ∈ s'.flights, t.uid ∉ f.uids)) ∧
  (∀ (s : State) (t : Thread) (m : Member) (d a : Name),
    (Issues s t (.crewnew d a) → 1 ≤ (s.name t a).toNat → (s.name t a).toNat ≤ 64 →
      (s.begin t (.crewnew d a)).member? t.member = some m →
      (s.begin t (.crewnew d a)).canMakeCrew m = true →
      let n := (s.begin t (.crewnew d a)).newCrew t.core t.member (s.name t a).toNat none
      exec (.crewnew d a) s = .next (n.1.result t d n.2.idWord)) ∧
    (∀ (c : Crew) (l : Nat), Issues s t (.join d a) → s.inBent t = false →
      s.crewById t.core t.member (s.name t a) = some c → c.cid ≠ t.crew → c.bent = none →
      s.isFrameCrew c.cid = false → l < c.width → l ∉ s.heldLanes c.cid →
      (∀ k < l, k ∈ s.heldLanes c.cid) →
      exec (.join d a) s = .next (((s.begin t (.join d a)).moveTo t c.cid l).result t d (BitVec.ofNat 32 l))) ∧
    (Issues s t (.leave d) → s.inBent t = false → (s.crewThreads t.crew).length ≠ 1 →
      (s.begin t (.leave d)).member? t.member = some m → (s.begin t (.leave d)).canMakeCrew m = true →
      let n := (s.begin t (.leave d)).newCrew t.core t.member 1 none
      exec (.leave d) s = .next ((n.1.moveTo t n.2.cid 0).result t d n.2.idWord)) ∧
    (Issues s t (.crewnew d a) →
      let s1 := s.begin t (.crewnew d a)
      (s.name t a = 0 ∨ 64 < (s.name t a).toNat → exec (.crewnew d a) s = .next (s1.trap t.uid 0x123 0)) ∧
      (1 ≤ (s.name t a).toNat → (s.name t a).toNat ≤ 64 → s1.member? t.member = some m → s1.canMakeCrew m = false →
        exec (.crewnew d a) s = .next (s1.result t d 0))) ∧
    (∀ i ∈ [Instr.join d a, .leave d], Issues s t i → s.inBent t = true →
      exec i s = .next ((s.begin t i).trap t.uid 0x121 0)) ∧
    (Issues s t (.join d a) → s.inBent t = false →
      let answers (v : Word) : Prop := exec (.join d a) s = .next ((s.begin t (.join d a)).result t d v)
      (s.crewById t.core t.member (s.name t a) = none → answers 0xFFFFFFFF) ∧
      ∀ c : Crew, s.crewById t.core t.member (s.name t a) = some c →
        (c.cid = t.crew → answers (BitVec.ofNat 32 t.lane)) ∧
        (c.cid ≠ t.crew → c.bent ≠ none ∨ s.isFrameCrew c.cid = true ∨ (∀ l < c.width, l ∈ s.heldLanes c.cid) →
          answers 0xFFFFFFFF)) ∧
    (Issues s t (.leave d) → s.inBent t = false →
      let s1 := s.begin t (.leave d)
      (∀ c : Crew, (s.crewThreads t.crew).length = 1 → s.crew? t.crew = some c →
        exec (.leave d) s = .next (s1.result t d c.idWord)) ∧
      ((s.crewThreads t.crew).length ≠ 1 → s1.member? t.member = some m → s1.canMakeCrew m = false →
        exec (.leave d) s = .next (s1.result t d 0))) ∧
    (s.canMakeCrew m = true ↔ (s.crews.countP fun c => c.member == m.id && c.bent.isNone) < 1 + m.desc.spcrews ∧
      (s.crews.countP fun c => c.core == m.core) +
        ((s.frames.filter fun f => f.core == m.core).map fun f => f.d - f.bents.length).sum < 256)) ∧
  (∀ (s : State) (core member width : Nat) (b : Option (Nat × Nat)),
    (∃ i < 256, ∀ c ∈ s.crews, c.core = core → c.index ≠ i) →
    ∃ c : Crew, (s.newCrew core member width b).2 = c ∧ (s.newCrew core member width b).1.crews = s.crews ++ [c] ∧
      c.core = core ∧ c.member = member ∧ c.width = width ∧ c.bent = b ∧ c.index < 256 ∧
      (∀ x ∈ s.crews, x.core = core → x.index ≠ c.index) ∧
      (∀ i < c.index, ∃ x ∈ s.crews, x.core = core ∧ x.index = i) ∧
      c.gen = (match assoc (s.core core).gens c.index with | none => 0 | some g => (g + 1) % 65536))

/-- R128, R148, R150, R375, R384, R405: the words that gather their crew enter the thread into the gathering at
their word: REJOIN and BALLOT with the mask they name, PHASE, the tag-barrier arrivals and DFKEEP with every
lane. A tag at or above the member's declared tags traps with cause 0x142, and PHASE, DFKEEP and the
tag-barrier arrivals that publish trap with cause 0x105 in a lane of a bent. CREWQ answers about the
thread's own crew, or about a crew of its member by its id, and 0 for an id that names no live crew.

Where it rests on a choice of the model and not on a rule, the choice is log entry 46. -/
def Obligations.GatheringWords : Prop :=
  ∀ (s : State) (t : Thread) (m : Member) (d a b : Name) (p tag : BitVec 3) (q : BitVec 2) (c : Crew),
    let all := BitVec.allOnes 64
    let gathers (i : Instr) (mask : DWord) : Prop := Issues s t i →
      exec i s = .next ((s.begin t i).modThread t.uid fun x => { x with wait := .gather mask })
    s.member? t.member = some m →
    gathers (.rejoin a) (s.pair t a) ∧ gathers (.ballot d a p) (s.pair t a) ∧
    (tag.toNat < m.desc.tags → gathers (.tbar tag b) all ∧ gathers (.tbara d tag b) all) ∧
    (s.inBent t = false → gathers (.dfkeep d a) all ∧ (t.runs = [] → gathers .phase all) ∧
      (tag.toNat < m.desc.tags → gathers (.tbarP tag b) all ∧ gathers (.tbaraP d tag b) all)) ∧
    (∀ i ∈ [(Instr.tbar tag b, false), (.tbara d tag b, false), (.tbarP tag b, true), (.tbaraP d tag b, true)],
      Issues s t i.1 → m.desc.tags ≤ tag.toNat → i.2 = false ∨ s.inBent t = false →
      exec i.1 s = .next ((s.begin t i.1).trap t.uid 0x142 (tag.setWidth 64))) ∧
    (∀ i ∈ [Instr.phase, .tbarP tag b, .tbaraP d tag b, .dfkeep d a], Issues s t i → s.inBent t = true →
      i ≠ .phase ∨ t.runs = [] → exec i s = .next ((s.begin t i).trap t.uid 0x105 0)) ∧
    (Issues s t (.crewq d a q) → a ≠ 0 → (∀ c ∈ s.crews, c.core = t.core → c.member = t.member → c.idWord ≠ s.name t a) →
      exec (.crewq d a q) s = .next ((s.begin t (.crewq d a q)).result t d 0)) ∧
    (Issues s t (.crewq d a q) →
      (if a = 0 then s.crew? t.crew else s.crewById t.core t.member (s.name t a)) = some c →
      exec (.crewq d a q) s = .next ((s.begin t (.crewq d a q)).result t d
        (let lanes := ((s.crewThreads c.cid).filter Thread.lives).map (·.lane)
         if q = 0 then BitVec.ofNat 32 lanes.length
         else if q = 1 then BitVec.ofNat 32 c.width
         else if q = 2 then loWord (laneMask lanes)
         else hiWord (laneMask lanes))))

/-- R128, R148, R150, R375, R384, R405: a gathering whose masks are settled releases, and its word goes on for
all its lanes: REJOIN completes, BALLOT completes with the lanes whose predicate is true, PHASE and the
forms with publish wait for the crew's publication, and the other arrivals set out to the barrier tree.
DFKEEP makes its checks here, with the operands of the lowest lane, and a check that fails traps every lane:
no pool 0x0E9, windows not declared 0x093, a bad operand 0x090 with the word. -/
def Obligations.GatheringReleases : Prop :=
  ∀ (s : State) (c : Crew) (m : Member) (t l : Thread) (ts all : List Thread) (w : Word) (i : Instr),
    s.input = .gathering c.cid t.pc → s.crew? c.cid = some c → s.member? c.member = some m →
    sortBy (·.lane) (s.threads.filter fun x => x.gathersAt c.cid t.pc) = t :: ts → all = t :: ts →
    minBy all (·.lane) = some l → s.fetchWord t = some w → decode w = .ok i → m.goesOn = true →
    s.gathered c all = true →
    (∀ a, i = .rejoin a → exec .gatheringRelease s = .next (s.finishAll all)) ∧
    (∀ d a p, i = .ballot d a p → exec .gatheringRelease s =
      .next (s.pairEach all d (laneMask ((all.filter fun x => x.pred p).map (·.lane))))) ∧
    (i = .phase → exec .gatheringRelease s = .next (s.waitEach all (.publish .boundary))) ∧
    (∀ tag b, i = .tbar tag b → exec .gatheringRelease s =
      .next (s.sendTag all m tag.toNat (s.name l b).toNat none true false (atomicsOf all))) ∧
    (∀ d tag b, i = .tbara d tag b → exec .gatheringRelease s =
      .next (s.sendTag all m tag.toNat (s.name l b).toNat (some (all.map fun x => s.slotOf x d)) false false
        (atomicsOf all))) ∧
    (∀ tag b, i = .tbarP tag b → exec .gatheringRelease s =
      .next (s.publishEach all fun _ => .arrive tag.toNat (s.name l b).toNat none true)) ∧
    (∀ d tag b, i = .tbaraP d tag b → exec .gatheringRelease s =
      .next (s.publishEach all fun x => .arrive tag.toNat (s.name l b).toNat (some [s.slotOf x d]) false)) ∧
    (∀ d a, i = .dfkeep d a →
      let pool := s.pool? m.part
      let q := s.name l a
      let checks : List (Bool × Nat × DWord) := [
        (pool.isNone, 0x0E9, 0), (!m.desc.flags.testBit 1, 0x093, 0),
        (pool.any fun c => decide (c.seqs ≤ q.toNat), 0x090, q.setWidth 64),
        (decide (s.name l (a + 1) = 0), 0x090, 0),
        (decide (16 < (s.name l (a + 2)).toNat), 0x090, (s.name l (a + 2)).setWidth 64)]
      (∀ cause addr, firstFailed checks = some (cause, addr) →
        exec .gatheringRelease s = .next (s.trapEach all cause addr)) ∧
      (firstFailed checks = none → exec .gatheringRelease s =
      .next (s.publishEach all fun x => .keep (s.name l a).toNat (s.name l (nameAt a 1)).toNat
        (s.name l (nameAt a 2)).toNat [s.slotOf x d])))

/-- R178, R187, R189, R194, R195, R196, R198, R199: the frame words outside and inside a bent; FBREAK outside a
stage run traps with cause 0x109, and FRAMEEND outside a bent with 0x106.

R178, R179, R181: when the gathering of a crew at FRAME releases, its checks are made in their order with
the operands of the lowest lane, and every thread of it traps at the first that fails: 0x100, 0x10B, 0x101,
0x102, 0x104 or 0x103. When none fails, a frame starts with the trip count, depth and stage count of those
operands; with a trip count above 0 the lanes of the crew wait for it, and with 0 they go on behind its
FRAMEEND at once.

Where it rests on a choice of the model and not on a rule, the choice is log entries 51, 89 and 91. -/
def Obligations.FrameWordsAndStarts : Prop :=
  (∀ (s : State) (t : Thread) (d a b : Name) (g : BitVec 3),
    (Issues s t (.frame a b) → s.inBent t = false → exec (.frame a b) s =
      .next ((s.begin t (.frame a b)).modThread t.uid fun x => { x with wait := .gather (BitVec.allOnes 64) })) ∧
    (Issues s t (.gseed g a) → s.inBent t = false → exec (.gseed g a) s =
      .next ((s.begin t (.gseed g a)).modThread t.uid fun x =>
        Thread.advance { x with seeds := Map.set x.seeds g.toNat (s.name t a) })) ∧
    (Issues s t (.gcollect d g) → s.inBent t = false → exec (.gcollect d g) s =
      .next ((s.begin t (.gcollect d g)).result t d (Map.get t.seeds g.toNat))) ∧
    (∀ (f : Frame) (k : Nat) (r : Run), Issues s t .fbreak → s.bentOf t = some (f, k) →
      (t.runs.filter fun x => x.stageKind).getLast? = some r →
      exec .fbreak s = .next (((s.begin t .fbreak).modFrame f.fid fun x =>
        { x with n := if x.n ≤ k + 1 - r.stage then x.n else k + 1 - r.stage }).modThread t.uid Thread.advance)) ∧
    (∀ (f : Frame) (k : Nat), Issues s t .fbreak → s.bentOf t = some (f, k) → (∀ r ∈ t.runs, r.stageKind = false) →
      exec .fbreak s = .next ((s.begin t .fbreak).trap t.uid 0x109 0)) ∧
    (Issues s t .frameend → s.inBent t = false →
      exec .frameend s = .next ((s.begin t .frameend).trap t.uid 0x106 0)) ∧
    (∀ (f : Frame) (k : Nat), Issues s t .frameend → s.bentOf t = some (f, k) →
      (∀ x ∈ f.ring, x.k = k → x.lane = t.lane → x.written = true → x.peg = true) →
      exec .frameend s = .next ((s.begin t .frameend).endThread t.uid)) ∧
    (∀ (f : Frame) (k : Nat), Issues s t .frameend → s.bentOf t = some (f, k) →
      (∃ x ∈ f.ring, x.k = k ∧ x.lane = t.lane ∧ x.written = true ∧ x.peg = false) →
      exec .frameend s = .next ((s.begin t .frameend).passStage t f k 8)) ∧
    (∀ i ∈ [Instr.frame a b, .gseed g a, .gcollect d g], Issues s t i → s.inBent t = true →
      exec i s = .next ((s.begin t i).trap t.uid 0x105 0)) ∧
    (Issues s t .fbreak → s.inBent t = false → exec .fbreak s = .next ((s.begin t .fbreak).trap t.uid 0x106 0))) ∧
  (∀ (s : State) (c : Crew) (m : Member) (t : Thread) (ts : List Thread) (a b : Name) (w : Word),
    s.input = .gathering c.cid t.pc → s.crew? c.cid = some c → s.member? c.member = some m →
    sortBy (·.lane) (s.threads.filter fun x => x.gathersAt c.cid t.pc) = t :: ts → minBy (t :: ts) (·.lane) = some t →
    s.fetchWord t = some w → decode w = .ok (.frame a b) → m.goesOn = true → s.gathered c (t :: ts) = true →
    s.settled (clocksOf (t :: ts)) = true → (∀ x ∈ t :: ts, s.caughtUp x = true) →
    let n := s.name t a
    let v := s.name t b
    let d := v.toNat % 16
    let g := v.toNat / 16 % 16
    let lanes := ts.length + 1
    let malformed : Prop := 256 ≤ v.toNat ∨ d < 2 ∨ 8 < d ∨ g < 1 ∨ 8 < g
    let ends (e : Nat) : Prop := t.pc.toNat < e ∧ e ≤ t.pc.toNat + 4096 ∧ (s.wordsOf t)[e]? = some 0x30400000
    let full : Prop := s.poolFree m < d * lanes ∨ s.freeCrews m.core < d
    let fails (cause : Nat) (x : DWord) : Prop := exec .gatheringRelease s = .next (s.trapEach (t :: ts) cause x)
    let sized : Prop := ¬malformed ∧ n.toNat ≤ 0xFFFFFFF0 ∧ d ≤ m.desc.depth ∧ 128 ≤ s.allot t
    (malformed → fails 0x100 (v.setWidth 64)) ∧
    (¬malformed → 0xFFFFFFF0 < n.toNat → fails 0x10B (n.setWidth 64)) ∧
    (¬malformed → n.toNat ≤ 0xFFFFFFF0 → m.desc.depth < d → fails 0x101 (BitVec.ofNat 64 d)) ∧
    (¬malformed → n.toNat ≤ 0xFFFFFFF0 → d ≤ m.desc.depth → s.allot t < 128 →
      fails 0x102 (BitVec.ofNat 64 (s.allot t))) ∧
    (sized → (∀ e, ¬ends e) → fails 0x104 (t.pc.setWidth 64)) ∧
    (sized → (∃ e, ends e) → full → fails 0x103 0) ∧
    ∀ e, sized → ends e → (∀ j, ends j → e ≤ j) → ¬full →
      (n ≠ 0 → ∃ s' : State, ∃ f : Frame, exec .gatheringRelease s = .next s' ∧ s'.frames = s.frames ++ [f] ∧
        f.fid = s.nextId ∧ f.crew = t.crew ∧ f.n = n.toNat ∧ f.d = d ∧ f.s = g ∧ f.p = t.pc ∧
        f.e = BitVec.ofNat 32 e ∧ f.next = 0 ∧ f.retired = 0 ∧ f.bents = [] ∧ f.ring = [] ∧
        f.lanes = (t :: ts).map (·.lane) ∧
        (∀ x ∈ t :: ts, ∀ y, s'.thread? x.uid = some y → y.wait = .frame f.fid) ∧ s'.mem = s.mem) ∧
      (n = 0 → (∀ x ∈ s.frames, x.fid ≠ s.nextId) → ∃ s' : State, exec .gatheringRelease s = .next s' ∧
        s'.frames = s.frames ∧ s'.mem = s.mem ∧
        ∀ x ∈ t :: ts, ∀ y, s'.thread? x.uid = some y → y.pc = BitVec.ofNat 32 e + 1 ∧ y.wait = .none))

/-- R90, R184, R186: names 96 to 127 of a lane of a bent name eight slots at the ages 0 to 3. At age 1 or more
the name reads the value of the bent that many before, once that has pegged the slot, and the lane's seed
where there is no such bent; at age 0 the bent's own value where its written bit is set, else what age 1
reads. Until then the read waits.

R181: the frame controller creates the next bent: one lane for each lane of the frame crew, at the word
after FRAME, in the order of the lanes, with the crew lane's predicates and its names 1 to 95, its girt
names unset.

R187, R188: the oldest bent retires once its lanes have ended and their girt results have landed: its lanes
and crew are gone, each slot that a lane did not write holds, pegged, what the bent before had there, or the
lane's seed, and each lane's saturation flag is merged into the frame crew. With the last one of a frame
that creates no more, the frame is gone and its crew resumes at the word after FRAMEEND with the final
values as its seeds.

Where it rests on a choice of the model and not on a rule, the choice is log entry 76. -/
def Obligations.BentsComeAndGo : Prop :=
  (∀ (s : State) (t : Thread) (f : Frame) (k : Nat) (n : Name), s.bentOf t = some (f, k) → 96 ≤ n.toNat →
    let g := (n.toNat - 96) / 4
    let a := (n.toNat - 96) % 4
    let slot (j : Nat) : Option Girt := f.ring.find? fun x => x.k == j && x.slot == g && x.lane == t.lane
    let own : Prop := a = 0 ∧ ∃ x, slot k = some x ∧ x.written = true
    let age := Nat.max a 1
    (∀ x, a = 0 → slot k = some x → x.written = true →
      s.nameWaits t n = !x.peg ∧ (x.peg = true → s.name t n = x.value)) ∧
    (¬own → k < age → s.nameWaits t n = false ∧
      ∀ c, (s.threads.find? fun x => x.crew == f.crew && x.lane == t.lane) = some c → s.name t n = Map.get c.seeds g) ∧
    (¬own → age ≤ k →
      (∀ x, slot (k - age) = some x → s.nameWaits t n = !x.peg ∧ (x.peg = true → s.name t n = x.value)) ∧
      (slot (k - age) = none → s.nameWaits t n = true))) ∧
  (∀ (s : State) (f : Frame), s.input = .id f.fid → s.frame? f.fid = some f → s.canCreateBent f = true →
    s.memberRuns f.member = true →
    ∃ s' : State, ∃ new : List Thread, exec .bentCreate s = .next s' ∧ s'.threads = s.threads ++ new ∧ s'.mem = s.mem ∧
      (s'.frame? f.fid).map (fun x => (x.next, x.bents.length)) = some (f.next + 1, f.bents.length + 1) ∧
      new.map (·.lane) = (sortBy (·.lane) ((s.crewThreads f.crew).filter fun t => f.lanes.contains t.lane)).map (·.lane) ∧
      (∀ r : Frame, s'.frame? f.fid = some r → ∀ g ∈ r.ring, g.k ≠ f.next) ∧
      ∀ x ∈ new, x.pc = f.p + 1 ∧ x.member = f.member ∧ x.core = f.core ∧ x.wb = 0 ∧
        (∃ c ∈ s'.crews, c.cid = x.crew ∧ c.core = f.core ∧ c.bent = some (f.fid, f.next)) ∧
        ∃ t ∈ s.crewThreads f.crew, x.lane = t.lane ∧ x.preds = t.preds ∧ x.regs = bentRegs t) ∧
  (∀ (s : State) (f : Frame) (b : Bent), s.input = .id f.fid → s.frame? f.fid = some f →
    (f.bents.find? fun x => f.canRetire x) = some b → s.memberRuns f.member = true → b.crew ≠ f.crew →
    ∃ s' : State, exec .bentRetire s = .next s' ∧ (∀ x ∈ s'.threads, x.crew ≠ b.crew) ∧
      (∀ c ∈ s'.crews, c.cid ≠ b.crew) ∧ s'.mem = s.mem ∧
      (∀ t ∈ s.threads, t.crew = f.crew → ∃ x ∈ s'.threads, x.uid = t.uid ∧ x.regs = t.regs ∧ x.preds = t.preds ∧
        x.wb = t.wb ∧ x.sat = (t.sat || s.threads.any fun y => y.crew == b.crew && y.lane == t.lane && y.sat)) ∧
      let slot (r : Frame) (j l g : Nat) : Option Girt :=
        r.ring.find? fun x => x.k == j && x.slot == g && x.lane == l
      let before (l g : Nat) : Word := if b.k = 0 then
          ((s.threads.find? fun t => t.crew == f.crew && t.lane == l).map fun t => Map.get t.seeds g).getD 0
        else ((slot f (b.k - 1) l g).map fun x => x.value).getD 0
      let final (l g : Nat) : Word := match slot f b.k l g with
        | some x => if x.written then x.value else before l g
        | none => before l g
      ((f.bents.all fun x => x.k == b.k) = true → (f.n = 0 ∨ f.n + f.s < f.next + 2) →
        s'.frame? f.fid = none ∧
        (∀ x ∈ s'.threads, x.crew = f.crew → x.pc = f.e + 1 ∧ x.wait = .none) ∧
        ((s.threads.map (·.uid)).Nodup → (∀ t ∈ s.threads, Map.wf t.seeds = true) →
          ∀ x ∈ s'.threads, x.crew = f.crew → x.lane ∈ f.lanes → ∀ g < 8, Map.get x.seeds g = final x.lane g)) ∧
      ((f.bents.any fun x => x.k != b.k) = true → ∃ r, s'.frame? f.fid = some r ∧ r.retired = f.retired + 1 ∧
        ∀ l ∈ f.lanes, ∀ g < 8, ∃ y, slot r b.k l g = some y ∧ y.value = final l g ∧
          ((∃ x, slot f b.k l g = some x ∧ x.written = true ∧ y = x) ∨ (y.written = false ∧ y.peg = true))))

/-- R86, R213, R221: a path T word whose first access is to the shared aperture waits for its walk, with nothing
changed yet in registers or memory.

R222, R223: a load of a scratchpad address that passes its checks leaves for its home and completes: the PC
advances, one flight carries the access, and its destination registers are due.

R222, R223: a store to a scratchpad address that passes its checks leaves with the bytes it read and
completes; no byte of memory and no register has changed yet.

R377, R379, R380: an atomic at a scratchpad address that passes its checks leaves with its operand and
compare value and completes; with `.acq` the thread waits for its reply, with `.nr` no register is due.

R202, R217, R224, R232: a path T word traps, with the address of the access in `xaddr` and nothing else
changed, where the checks of R202 fail in their order: in no aperture, misaligned, beyond the member's own
scratchpad, at a peer that is not there, beyond a peer's scratchpad; then for a write to a read-only mapped
region; and with the cause and address of any other check that denies it. Of two accesses the second is
checked once the first has passed.

These hold for each of ldB, ldBs, ldH, ldHs, ldW, ldD, ldQ, ldxB, ldxBs, ldxH, ldxHs, ldxW, ldxD, ldxQ, stB,
stH, stW, stD, stQ, stxB, stxH, stxW, stxD, stxQ, aadd, amin, amax, aand, aor, axor, axchg, acas, acas64,
afadd and afmax, whose accesses `asks` names one by one. -/
def Obligations.AccessesLeave : Prop :=
  (∀ (s : State) (t : Thread) (m : Member) (i : Instr) (op : MemOp) (n : Need) (rest : List Need) (va : Nat),
    Issues s t i → asks s t i = some op → MayAccess (s.begin t i) t m op → op.needs = n :: rest →
    (s.begin t i).target m n.addr n.size = .ok (.shared va) →
    exec i s = .next ((s.begin t i).modThread t.uid fun x => { x with wait := .walk op })) ∧
  (∀ (s : State) (t : Thread) (m : Member) (i : Instr) (a : DWord) (size : Nat) (signed : Bool)
    (dst : List Slot) (l : Loc),
    Issues s t i → asks s t i = some (.load a size signed dst) →
    MayAccess (s.begin t i) t m (.load a size signed dst) → PassesLocal (s.begin t i) m ⟨a, size, false, false⟩ l →
    ∃ s' : State, ∃ t' : Thread, ∃ f : Flight, exec i s = .next s' ∧ s'.thread? t.uid = some t' ∧ s'.flights = s.flights ++ [f] ∧
      f.id = s.nextId ∧ f.op = .load l size signed ∧ f.dst = dst ∧ f.uids = [t.uid] ∧ f.applied = false ∧
      t'.pc = t.pc + 1 ∧ t'.wait = .none ∧ t'.regs = t.regs ∧ t'.preds = t.preds ∧
      t'.marks = t.marks ++ dst.filterMap (fun d => match d with | .reg j => some (j, s.nextId) | _ => none) ∧
      s'.mem = s.mem ∧ (∀ u, u ≠ t.uid → s'.thread? u = s.thread? u) ∧
      ∀ k, (s'.member? k).map (·.scratch) = (s.member? k).map (·.scratch)) ∧
  (∀ (s : State) (t : Thread) (m : Member) (i : Instr) (a : DWord) (bs : List Byte) (l : Loc),
    Issues s t i → asks s t i = some (.store a bs) → MayAccess (s.begin t i) t m (.store a bs) →
    PassesLocal (s.begin t i) m ⟨a, bs.length, true, false⟩ l →
    ∃ s' : State, ∃ t' : Thread, ∃ f : Flight, exec i s = .next s' ∧ s'.thread? t.uid = some t' ∧ s'.flights = s.flights ++ [f] ∧
      f.id = s.nextId ∧ f.op = .store l bs ∧ f.uids = [t.uid] ∧ f.applied = false ∧
      t'.pc = t.pc + 1 ∧ t'.wait = .none ∧ t'.regs = t.regs ∧ t'.preds = t.preds ∧ t'.marks = t.marks ∧
      s'.mem = s.mem ∧ (∀ u, u ≠ t.uid → s'.thread? u = s.thread? u) ∧
      ∀ k, (s'.member? k).map (·.scratch) = (s.member? k).map (·.scratch)) ∧
  (∀ (s : State) (t : Thread) (m : Member) (i : Instr) (a : DWord) (k : AtomKind) (o c : DWord) (x : AtomMod)
    (dst : List Slot) (l : Loc),
    Issues s t i → asks s t i = some (.atomic a k o c x dst) → MayAccess (s.begin t i) t m (.atomic a k o c x dst) →
    PassesLocal (s.begin t i) m ⟨a, if k = .cas64 then 8 else 4, true, true⟩ l →
    ∃ s' : State, ∃ t' : Thread, ∃ f : Flight, exec i s = .next s' ∧ s'.thread? t.uid = some t' ∧ s'.flights = s.flights ++ [f] ∧
      f.id = s.nextId ∧ f.op = .atomic l k o c x ∧ f.dst = (if x.nr then [] else dst) ∧ f.uids = [t.uid] ∧
      f.applied = false ∧ t'.pc = t.pc + 1 ∧ t'.wait = (if x.acq then .reply s.nextId else .none) ∧
      t'.regs = t.regs ∧ s'.mem = s.mem ∧ (∀ u, u ≠ t.uid → s'.thread? u = s.thread? u) ∧
      ∀ j, (s'.member? j).map (·.scratch) = (s.member? j).map (·.scratch)) ∧
  (∀ (s : State) (t : Thread) (m : Member) (i : Instr) (op : MemOp) (n : Need) (rest : List Need),
    Issues s t i → asks s t i = some op → MayAccess (s.begin t i) t m op → op.needs = n :: rest →
    let s1 := s.begin t i
    let a := n.addr.toNat
    let lo := (n.addr - 0xFFFFFF8000000000).toNat
    let co := (n.addr - 0xFFFFFF8100000000).toNat
    let traps (c : Nat) : Prop := exec i s = .next (s1.trap t.uid c n.addr)
    (2 ^ 51 ≤ a → 2 ^ 24 ≤ lo → 2 ^ 26 ≤ co → traps 0x080) ∧
    (a < 2 ^ 51 ∨ lo < 2 ^ 24 ∨ co < 2 ^ 26 → a % n.size ≠ 0 → traps 0x081) ∧
    (2 ^ 51 ≤ a → lo < 2 ^ 24 → a % n.size = 0 → m.desc.scratch * 65536 < lo + n.size → traps 0x082) ∧
    (2 ^ 51 ≤ a → 2 ^ 24 ≤ lo → co < 2 ^ 26 → a % n.size = 0 →
      (192 ≤ m.core ∨ s1.peer m (co / 2 ^ 24) = none → traps 0x083) ∧
      (∀ p, s1.peer m (co / 2 ^ 24) = some p → p.desc.scratch * 65536 < co % 2 ^ 24 + n.size → traps 0x084)) ∧
    (∀ o off, s1.target m n.addr n.size = .ok (.scratch o off) →
      (∀ c x, s1.check m n = .deny c x → exec i s = .next (s1.trap t.uid c x)) ∧
      (∀ r, s1.slotBarred m o off n.size = false → o.divertAt off ≠ some .restoring → o.regionAt off = some r →
        n.write = true → r.writable = false → traps 0x08D)) ∧
    (∀ n1 l, rest = [n1] → PassesLocal s1 m n l →
      (∀ c, s1.target m n1.addr n1.size = .error c → exec i s = .next (s1.trap t.uid c n1.addr)) ∧
      (∀ o off c x, s1.target m n1.addr n1.size = .ok (.scratch o off) → s1.check m n1 = .deny c x →
        exec i s = .next (s1.trap t.uid c x))))

/-- R354: a store is performed at its home, device memory or a member's scratchpad: exactly its bytes change,
and its flight ends. At a home that has gone it changes nothing (R434).

R354, R377, R379: an atomic is performed at its home, device memory or a member's scratchpad, as one
indivisible step: it writes the combination of the value it found and its operand there, a compare that
differs writes nothing, and the value it found becomes the flight's reply.

R170, R222, R379, R380, R436: the reply of a load of 1, 2, 4, 8 or 16 bytes lands in the slots its
destination named at issue, registers or a girt slot, and so does that of an atomic that has been performed,
which pegs a girt slot as its one write (R185, R381), with what an `.acq` one acquired and the pause of a
failed compare with a spin hint; the registers are no longer due, and the flight ends.

Where it rests on a choice of the model and not on a rule, the choice is log entries 11, 53 and 82. -/
def Obligations.AccessesPerformed : Prop :=
  ((∀ (s : State) (f : Flight) (l : Loc) (bs : List Byte), s.input = .id f.id → s.flight? f.id = some f →
    f.op = .store l bs → f.applied = false → s.clear f = true → s.homeOpen l = true → s.homeGone l = true →
    exec .writePerformedAtHome s = .next { s with flights := s.flights.filter fun g => g.id != f.id }) ∧
  ∀ (s : State) (f : Flight) (l : Loc) (bs : List Byte), Memory.wf s.mem = true → s.scratchWf → s.homeThere l →
    s.input = .id f.id → s.flight? f.id = some f → f.op = .store l bs → f.applied = false → s.clear f = true →
    s.homeOpen l = true →
    ∃ s' : State, exec .writePerformedAtHome s = .next s' ∧ s'.flights = s.flights.filter (fun g => g.id != f.id) ∧
      (∀ j < bs.length, s'.bytesAt (l.plus j) 1 = [bs.getD j 0]) ∧ s.sameOutside s' l bs.length ∧
      (∀ t ∈ s.threads, t.monitor = none → t ∈ s'.threads) ∧ (l.space = 0 → s'.members = s.members) ∧
      s'.parts = s.parts) ∧
  (∀ (s : State) (f : Flight) (l : Loc) (k : AtomKind) (o c : DWord) (x : AtomMod), Memory.wf s.mem = true →
    s.scratchWf → s.homeThere l → s.homeOpen l = true →
    s.input = .id f.id → s.flight? f.id = some f → f.op = .atomic l k o c x → f.applied = false →
    s.clear f = true → (k ≠ .cas64 → o.toNat < 2 ^ 32 ∧ c.toNat < 2 ^ 32) →
    let n := if k = .cas64 then 8 else 4
    ∃ s' : State, ∃ old, exec .writePerformedAtHome s = .next s' ∧
      ((∀ j < n, ((s.shadowOf (l.plus j)).read f.agent f.clk n).2 = false) →
        old = leDWord (s.bytesAt l n)) ∧
      (x.nr = false → (s'.flight? f.id).map (fun g => (g.applied, g.reply)) =
        some (true, if n = 8 then [loWord old, hiWord old] else [loWord old])) ∧
      leDWord (s'.bytesAt l n) =
        (match k with
          | .add => (loWord old + loWord o).setWidth 64
          | .smin => (if (loWord o).toInt < (loWord old).toInt then loWord o else loWord old).setWidth 64
          | .smax => (if (loWord old).toInt < (loWord o).toInt then loWord o else loWord old).setWidth 64
          | .band => (loWord old &&& loWord o).setWidth 64
          | .bor => (loWord old ||| loWord o).setWidth 64
          | .bxor => (loWord old ^^^ loWord o).setWidth 64
          | .xchg => (loWord o).setWidth 64
          | .fadd => (addF32 .rn (loWord old) (loWord o)).setWidth 64
          | .fmax => (maxF32 (loWord old) (loWord o)).setWidth 64
          | .cas => if old = c then o else leDWord (s.bytesAt l n)
          | .cas64 => if old = c then o else leDWord (s.bytesAt l n)) ∧
      s.sameOutside s' l n) ∧
  (∀ (s : State) (f : Flight) (t : Thread), s.input = .id f.id → s.flight? f.id = some f → f.uids = [t.uid] →
    s.thread? t.uid = some t →
    let rest (s' : State) : Prop := s'.flights = s.flights.filter (fun g => g.id != f.id) ∧ s'.mem = s.mem ∧
      s'.members = s.members ∧ ∀ u, u ≠ t.uid → s'.thread? u = s.thread? u
    let due : List (Nat × Nat) := t.marks.filter fun m => m.2 != f.id
    (∀ (l : Loc) (size : Nat) (signed : Bool), f.op = .load l size signed → s.clear f = true →
      s.homeOpen l = true → s.homeGone l = false → size ∈ [1, 2, 4, 8, 16] →
      (∀ i < size, ((s.shadowOf (l.plus i)).read f.agent f.clk (if size = 16 then 16 else 0)).2 = false) →
      let x := leNat (s.bytesAt l size)
      let words : List Word := if size ≤ 4 then [if signed ∧ size < 4 ∧ 2 ^ (8 * size - 1) ≤ x then
          BitVec.ofInt 32 (x - 2 ^ (8 * size)) else BitVec.ofNat 32 x]
        else (List.range (size / 4)).map fun i => BitVec.ofNat 32 (x / 2 ^ (32 * i))
      ((∀ d ∈ f.dst, d = .drop ∨ ∃ j, d = .reg j) → ∃ s' : State, exec .replyLand s = .next s' ∧
        s'.thread? t.uid = some { t with regs := landed f.dst words t.regs, marks := due } ∧ rest s') ∧
      (∀ (r : Frame) (k g lane : Nat), f.dst = [.girt r.fid k g lane] → s.frame? r.fid = some r →
        ∃ s' : State, exec .replyLand s = .next s' ∧ s'.thread? t.uid = some { t with marks := due } ∧
          s'.frame? r.fid = some (r.setGirt ⟨k, g, lane, words.headD 0, true, true, r.writeClk k g lane t.accessClk⟩) ∧ rest s')) ∧
    (∀ (l : Loc) (k : AtomKind) (o c : DWord) (m : AtomMod), f.op = .atomic l k o c m → f.applied = true →
      let failed : Prop := (k = .cas ∧ f.reply.headD 0 ≠ loWord c) ∨
        (k = .cas64 ∧ pairWord (f.reply.headD 0) (f.reply.getD 1 0) ≠ c)
      let lands (s' : State) (t' : Thread) : Prop := exec .replyLand s = .next s' ∧ s'.thread? t.uid = some t' ∧ rest s' ∧
        t'.marks = due ∧ t'.pc = t.pc ∧ t'.preds = t.preds ∧
        t'.wait = (if m.acq ∧ t.wait = .reply f.id then .none else t.wait) ∧
        t'.clk = (if m.acq then Clock.join t.clk f.learnt else t.clk) ∧
        (m.spin = 0 ∨ ¬failed → t'.pause = t.pause) ∧
        (m.spin ≠ 0 → failed → t'.pause = some (f.time + BitVec.ofNat 64 (8 * 8 ^ m.spin.toNat)) ∧
          t'.hitCloses = false)
      ((∀ d ∈ f.dst, d = .drop ∨ ∃ j, d = .reg j) → ∃ s' : State, ∃ t' : Thread, lands s' t' ∧
        t'.regs = landed f.dst f.reply t.regs) ∧
      ∀ (r : Frame) (n g lane : Nat), f.dst = [.girt r.fid n g lane] → s.frame? r.fid = some r → f.reply ≠ [] →
        let clk := r.writeClk n g lane t.accessClk
        ∃ s' : State, ∃ t' : Thread, lands s' t' ∧ t'.regs = t.regs ∧ s'.frame? r.fid = some (r.setGirt
          ⟨n, g, lane, f.reply.headD 0, true, true, if m.acq then Clock.join clk f.learnt else clk⟩)))

/-- R95, R98, R269: for every instruction word, the first failing check of the word for a thread traps it with
that cause, before the word takes any effect; a word that fails none and whose operands are due waits with
nothing changed, and a joint word waits so for every thread of its crew at the word.

R46, R91, R92, R95, R99, R185: the checks of a word, in their order. The decoder answers 0x001 for major
0x1F, 0x004 for the reserved guard kinds, and 0x003 for a nonzero reserved field, here those of NOP, EXIT,
YIELD, FRAMEEND, FBREAK, MREL, CLZ, POPC, BREV, CMP and the immediate shifts. A matrix major on an S-core
and the sieve's major on an M-core are cause 0x005, and an instruction that the feature mask hides is cause
0x006. Of the decoded words that pass, one with an invalid single name is cause 0x008, one with an invalid
pair or block 0x009, a guard prefix that breaks a run limit 0x00A, and a write to a girt name of age 1 to 3
or to a written girt name 0x107 or 0x108 with the name in `xaddr`. A word that breaks none has no cause.

R420, R421, R423: a thread that is not busy enters its handler: the cause, the address, the PC and the open
guard runs are saved, the runs, the join label and the pause window end, busy is set, the trap count rises,
and nothing else of the thread changes.

R423, R424, R474: a synchronous trap of a busy thread outside a bent ends the thread, and cause 0x182 is
recorded in its member's end status with the trap's own cause.

R419, R423: a waiting asynchronous cause is taken where the thread would otherwise issue its word, by a
thread that may issue and is not in its handler: the first of the queue, with its address, its progress
record and the asynchronous bit. Where the thread has evaluated a live prefix whose first word has not
issued, their slot is the prefix's. Where the thread would not issue, nothing happens.

Where it rests on a choice of the model and not on a rule, the choice is log entries 12, 28, 51 and 91. -/
def Obligations.ChecksAndTrapEntry : Prop :=
  (∀ (s : State) (t : Thread) (i : Instr), s.curThread? = some t → i.isWord = true →
    (∀ c x, s.issueCause t i = some (c, x) → exec i s = .next (s.trap t.uid c x)) ∧
    (s.issueCause t i = none → isJoint i = false → s.operandsWait t i = true → exec i s = .next s) ∧
    (s.issueCause t i = none → isJoint i = true →
      (∃ x ∈ s.threads, s.comesTo x i t.crew t.pc = true) ∨ (∃ x ∈ s.laneSet t i, s.operandsWait x i = true) →
      exec i s = .next s)) ∧
  (((∀ r : BitVec 27, decode (0x1F#5 ++ r) = .bad 1) ∧
    (∀ (k : BitVec 2) (r : BitVec 25), 2 ≤ k.toNat → decode (4#5 ++ k ++ r) = .bad 4) ∧
    (∀ r : BitVec 21, r ≠ 0 → ∀ h ∈ [1#11, 2#11, 3#11, 0x182#11, 0x183#11, 0x589#11], decode (h ++ r) = .bad 3) ∧
    (∀ d a b : Name, b ≠ 0 → ∀ f ∈ [0x17#6, 0x18#6, 0x19#6], decode (7#5 ++ f ++ d ++ a ++ b) = .bad 3) ∧
    (∀ (c : BitVec 3) (d a b : Name), 8 ≤ d.toNat → decode (7#5 ++ 6#3 ++ c ++ d ++ a ++ b) = .bad 3) ∧
    (∀ (d a : Name) (i : BitVec 10), 32 ≤ i.toNat → ∀ f ∈ [4#3, 5#3, 6#3], decode (8#5 ++ f ++ d ++ a ++ i) = .bad 3)) ∧
  (∀ (s : State) (t : Thread) (w : Word),
    let j := w.toNat / 2 ^ 27
    let f := w.toNat / 2 ^ 21 % 64
    let absent := (t.core < 192 ∧ j = 0x1D) ∨ (192 ≤ t.core ∧ 0x16 ≤ j ∧ j ≤ 0x18)
    let hidden := ∃ n : Nat, (s.maskOf t).getLsbD n = true ∧
      ((n = 0 ∧ 0x16 ≤ j ∧ j ≤ 0x18) ∨ (n = 0 ∧ j = 0x19 ∧ (f = 3 ∨ f = 4)) ∨ (n = 1 ∧ j = 0x18 ∧ (f = 5 ∨ f = 6)) ∨
        (n = 2 ∧ j = 0x18 ∧ f = 7) ∨ (n = 3 ∧ j = 0x1D) ∨ (n = 4 ∧ j = 0x1C) ∨ (n = 5 ∧ j = 0x1E) ∨
        (n = 6 ∧ j = 0x19 ∧ (f = 5 ∨ f = 6)) ∨ (n = 7 ∧ j = 0x1A ∧ (f = 0x19 ∨ f = 0x1A)) ∨
        (n = 8 ∧ j = 0x0E ∧ 0x18 ≤ f ∧ f ≤ 0x1B) ∨ (n = 9 ∧ j = 0x1B ∧ (f = 1 ∨ f = 2)) ∨
        (n = 10 ∧ j = 0 ∧ (f = 0x24 ∨ f = 0x25)))
    (absent → s.wordCause t w = some 0x005) ∧ (¬absent → hidden → s.wordCause t w = some 0x006) ∧
      (¬absent → ¬hidden → s.wordCause t w = none)) ∧
  (∀ (s : State) (t : Thread) (i : Instr),
    let ops := operandsOf i
    let valid (n : Name) : Prop := n = 0 ∨ (96 ≤ n.toNat ∧ s.inBent t = true) ∨ 16 * t.wb + n.toNat < s.allot t
    let named := ∀ n : Name, Operand.src n ∈ ops ∨ Operand.dst n ∈ ops ∨ Operand.both n ∈ ops → valid n
    let whole (n : Name) (k : Nat) : Prop := 1 ≤ n.toNat ∧ n.toNat + k ≤ (if s.inBent t then 96 else 128) ∧
      ∀ j < k, valid (nameAt n j)
    let blocked := ∀ n : Name,
      (Operand.srcPair n ∈ ops ∨ Operand.dstPair n ∈ ops ∨ Operand.addr n ∈ ops → n = 0 ∨ whole n 2) ∧
      (Operand.bothPair n ∈ ops → (n = 0 → valid 1) ∧ (n ≠ 0 → whole n 2)) ∧
      (Operand.srcQuad n ∈ ops ∨ Operand.dstQuad n ∈ ops → n = 0 ∨ whole n 4) ∧
      (∀ k, Operand.srcBlock n k ∈ ops ∨ Operand.dstBlock n k ∈ ops ∨ Operand.bothBlock n k ∈ ops → whole n k) ∧
      (Operand.shape n ∈ ops → whole n 4 ∧ (s.inBent t = true → n.toNat + 4 ≤ 95) ∧
        (s.nameWaits t (nameAt n 3) = false → (s.name t (nameAt n 3)).getLsbD 29 = true → whole n 5))
    let limits := ∃ (p : BitVec 3) (c : BitVec 5), (i = .guard p c ∨ i = .sguard p c ∨ i = .guardn p c) ∧
      ((∃ o, t.runs = [o] ∧ o.left < c.toNat + 2) ∨ 2 ≤ t.runs.length ∨
        ∃ j w, j ≤ c.toNat ∧ (s.wordsOf t)[t.pc.toNat + 1 + j]? = some w ∧
          (decode w = .ok .frameend ∨ decode w = .ok .phase ∨ ∃ a b, decode w = .ok (.frame a b)))
    let girt (n : Name) (c : Nat) : Prop := (Operand.dst n ∈ ops ∨ Operand.both n ∈ ops) ∧ 96 ≤ n.toNat ∧
      ∃ f k, s.bentOf t = some (f, k) ∧ ((c = 0x107 ∧ n.toNat % 4 ≠ 0) ∨ (c = 0x108 ∧ n.toNat % 4 = 0 ∧
        ∃ x, f.girt? k ((n.toNat - 96) / 4) t.lane = some x ∧ x.written = true))
    (∀ c, s.wordCause t (encode i) = some c → s.issueCause t i = some (c, 0)) ∧
    (s.wordCause t (encode i) = none →
      (¬named → s.issueCause t i = some (0x008, 0)) ∧ (named → ¬blocked → s.issueCause t i = some (0x009, 0)) ∧
      (named → blocked → limits → s.issueCause t i = some (0x00A, 0)) ∧
      (named → blocked → ¬limits → (∀ n c, girt n c → s.issueCause t i = some (c, BitVec.ofNat 64 n.toNat)) ∧
        ((∀ n c, ¬girt n c) → s.issueCause t i = none))))) ∧
  (∀ (s : State) (u cause : Nat) (addr : DWord) (t : Thread) (m : Member), s.thread? u = some t →
    s.member? t.member = some m → t.busy = false →
    (s.trap u cause addr).thread? u = some { t with
      xpc := t.pc, xaddr := addr, xcause := BitVec.ofNat 32 (cause % 512), latched := none, xstat := runsWord t.runs
      runs := [], join := none, pause := none, busy := true
      traps := if t.traps < 0xFFFF then t.traps + 1 else 0xFFFF, wait := .none, pc := s.handlerOf m } ∧
    (s.trap u cause addr).frames = s.frames ∧
    (∀ v, v ≠ u → (s.trap u cause addr).thread? v = s.thread? v) ∧
    (s.trap u cause addr).mem = s.mem ∧ (s.trap u cause addr).members = s.members) ∧
  (∀ (s : State) (u cause : Nat) (addr : DWord) (t : Thread) (m : Member), s.thread? u = some t →
    s.member? t.member = some m → t.busy = true → s.bentOf t = none →
    (s.trap u cause addr).thread? u = none ∧
    ((s.trap u cause addr).member? m.id).map (fun x => (x.nfault, x.fault1, x.losses)) =
      some (if m.nfault < 0xFFFF then m.nfault + 1 else 0xFFFF, some (m.fault1.getD 0x182), m.losses ++ [(0x182, cause)]) ∧
    (∀ v, v ≠ u → (s.trap u cause addr).thread? v = s.thread? v) ∧ (s.trap u cause addr).mem = s.mem) ∧
  (∀ (s : State) (t : Thread) (m : Member) (p : Pending) (rest : List Pending), s.input = .id t.uid →
    s.thread? t.uid = some t → s.member? t.member = some m → s.mayIssue t = true →
    (t.wait.atWord = true ∨ ∃ n, t.wait = .held n) → t.busy = false → t.pendq = p :: rest →
    (s.isReady t = false → exec .asyncTrapTake s = .next s) ∧
    (s.isReady t = true → ∃ s' : State, exec .asyncTrapTake s = .next s' ∧ s'.thread? t.uid = some { t with
      xpc := t.uncover.pc, xaddr := p.addr, latched := p.progress, xstat := runsWord t.uncover.runs, reached := t.uncover.reached
      xcause := BitVec.ofNat 32 (p.cause % 512 + 2 ^ 31 + (if p.deferred then 2 ^ 30 else 0) +
        (if p.progress.isSome then 2 ^ 29 else 0))
      runs := [], join := none, pause := none, busy := true, pendq := rest
      traps := if t.traps < 0xFFFF then t.traps + 1 else 0xFFFF, wait := .none, pc := s.handlerOf m } ∧
      s'.mem = s.mem ∧ s'.members = s.members))

/-- R443, R444: TRAP enters the handler with cause 448 + c and its operand in `xaddr`, BKPT with cause 0x180 and
its field.

R445: RETT transfers to its register, or to `xpc` for a field of 0, reopens the runs of `xstat` and clears
busy.

R421, R445: what `xstat` records of well-formed guard runs is what RETT reopens: at most two, the inner with
no more words left than the outer, counts from 1 to 32, a stage below 8 and only with the stage kind. -/
def Obligations.TrapWordsAndReturn : Prop :=
  (∀ (s : State) (t : Thread) (a b : Name) (c : BitVec 6),
    (Issues s t (.trap a c) → exec (.trap a c) s =
      .next ((s.begin t (.trap a c)).trap t.uid (448 + c.toNat) ((s.name t a).setWidth 64))) ∧
    (Issues s t (.bkpt b) → exec (.bkpt b) s = .next ((s.begin t (.bkpt b)).trap t.uid 0x180 (b.setWidth 64)))) ∧
  (∀ (s : State) (t : Thread) (a : Name), Issues s t (.rett a) →
    exec (.rett a) s = .next ((s.begin t (.rett a)).modThread t.uid fun x => { x with
      pc := if a = 0 then t.xpc else s.name t a, runs := wordRuns x.xstat, busy := false, wait := .none })) ∧
  (∀ rs : List Run, (rs = [] ∨ (∃ o, rs = [o]) ∨ ∃ o i, rs = [o, i] ∧ i.left ≤ o.left) →
    (∀ r ∈ rs, 1 ≤ r.left ∧ r.left ≤ 32 ∧ r.stage < 8 ∧ (r.stageKind = false → r.stage = 0)) →
    wordRuns (runsWord rs) = rs ∧ xstatOk (runsWord rs) true = true)

/-- R419, R446: MFX reads the trap registers.

R420, R421, R422, R446: MTX writes a trap register with a valid value and completes; `rec`, the pending
count and the trap count keep their value; an invalid value traps with cause 0x181.

R439, R447: SNAP triggers its partition's snapshot and writes 1, or 0 while the last one is not collected.

R316, R448: FLTQ writes the eight words of the latched progress record while `rec` is 1, else zeros, and
completes. -/
def Obligations.TrapRegisters : Prop :=
  (∀ (s : State) (t : Thread) (d : Name),
    (∀ r ∈ [(0#3, t.xpc), (1#3, t.xcause), (3#3, t.xstat),
      (4#3, BitVec.ofNat 32 ((if t.busy then 2 ^ 31 else 0) + (if t.pendq = [] then 0 else 2 ^ 30) +
        t.pendq.length % 16 * 2 ^ 16 + t.traps % 2 ^ 16))],
      Issues s t (.mfx d r.1) → exec (.mfx d r.1) s = .next ((s.begin t (.mfx d r.1)).result t d r.2)) ∧
    (Issues s t (.mfx d 2) → exec (.mfx d 2) s = .next ((s.begin t (.mfx d 2)).resultPair t d t.xaddr))) ∧
  (∀ (s : State) (t : Thread) (b : Name),
    let v := s.name t b
    let wrote (a : BitVec 3) (f : Thread → Thread) : State :=
      (s.begin t (.mtx a b)).modThread t.uid fun x => Thread.advance (f x)
    (Issues s t (.mtx 0 b) → exec (.mtx 0 b) s = .next (wrote 0 fun x => { x with xpc := v })) ∧
    (Issues s t (.mtx 1 b) → v.toNat / 2 ^ 9 % 2 ^ 20 = 0 → ∃ g : Word → Word,
      exec (.mtx 1 b) s = .next (wrote 1 fun x => { x with xcause := g x.xcause }) ∧
      ∀ old, ∀ j < 32, (g old).getLsbD j = (if j = 29 then old.getLsbD j else v.getLsbD j)) ∧
    (Issues s t (.mtx 2 b) → exec (.mtx 2 b) s = .next (wrote 2 fun x => { x with xaddr := s.pair t b })) ∧
    (Issues s t (.mtx 3 b) → xstatOk v (s.inBent t) = true →
      exec (.mtx 3 b) s = .next (wrote 3 fun x => { x with xstat := v })) ∧
    (Issues s t (.mtx 4 b) → v.toNat / 2 ^ 20 % 2 ^ 10 = 0 →
      exec (.mtx 4 b) s = .next (wrote 4 fun x => { x with busy := v.getLsbD 31 })) ∧
    (∀ a : BitVec 3, Issues s t (.mtx a b) → (a = 1 ∧ v.toNat / 2 ^ 9 % 2 ^ 20 ≠ 0) ∨
        (a = 3 ∧ xstatOk v (s.inBent t) = false) ∨ (a = 4 ∧ v.toNat / 2 ^ 20 % 2 ^ 10 ≠ 0) →
      exec (.mtx a b) s = .next ((s.begin t (.mtx a b)).trap t.uid 0x181 (v.setWidth 64)))) ∧
  (∀ (s : State) (t : Thread) (m : Member) (p : Partition) (d a : Name), Issues s t (.snap d a) →
    s.member? t.member = some m → s.part? m.part = some p →
    (p.latched = none → exec (.snap d a) s = .next (((s.begin t (.snap d a)).modPart m.part fun x =>
      { x with latched := some ⟨s.clock, m.job, s.name t a, t.core, t.tid, 0, m.part,
        (Config.snapBlocks m.part s.fresh).toNat⟩ }).result t d 1)) ∧
    (p.latched ≠ none → exec (.snap d a) s = .next ((s.begin t (.snap d a)).result t d 0))) ∧
  (∀ (s : State) (t : Thread) (d : Name), Issues s t (.fltq d) →
    (∀ p, t.latched = some p → t.xcause.getLsbD 29 = true → exec (.fltq d) s =
      .next (((s.begin t (.fltq d)).writeAll t.uid (s.blockSlots t d 8)
        [BitVec.ofNat 32 (p.cause % 65536 + 65536 * p.under), p.pc, loWord p.addr, hiWord p.addr,
          BitVec.ofNat 32 p.rows, BitVec.ofNat 32 p.bytes, p.shape,
          BitVec.ofNat 32 (p.dest % 65536)]).modThread t.uid Thread.advance)) ∧
    (t.latched = none ∨ t.xcause.getLsbD 29 = false → exec (.fltq d) s =
      .next (((s.begin t (.fltq d)).writeAll t.uid (s.blockSlots t d 8)
        [0, 0, 0, 0, 0, 0, 0, 0]).modThread t.uid Thread.advance)))

/-- R240, R255, R256, R258: FADD, FSUB, FMUL and FFMA round the exact result once, in each element of the
format; FMIN, FMAX, FNEG and FABS work on patterns; each completes. R241: a NaN makes a minimum or maximum
the canonical NaN, otherwise it is the operand that is nowhere above, or below, the other, and minus zero is
below plus zero. -/
def Obligations.FloatResults : Prop :=
  ∀ (s : State) (t : Thread) (f m : BitVec 2) (d a b : Name),
    let k : Fmt := if f = 1 then bf16 else if f = 2 then fp16 else fp32
    let md := Mode.ofBits m
    let each (op : Nat → Nat → Nat → Nat) (x y z : Word) : Word :=
      if f = 0 then BitVec.ofNat 32 (op x.toNat y.toNat z.toNat)
      else BitVec.ofNat 32 (op (x.toNat % 65536) (y.toNat % 65536) (z.toNat % 65536) +
        65536 * op (x.toNat / 65536) (y.toNat / 65536) (z.toNat / 65536))
    let x := s.name t a
    let y := s.name t b
    ∀ r ∈ [
      (Instr.fadd f m d a b, each (fun p q _ => (k.round md false ((k.value p).add md (k.value q))).1) x y 0),
      (.fsub f m d a b, each (fun p q _ => (k.round md false ((k.value p).add md (k.value q).neg)).1) x y 0),
      (.fmul f m d a b, each (fun p q _ => (k.round md false ((k.value p).mul (k.value q))).1) x y 0),
      (.ffma f m d a b, each (fun p q z =>
        (k.round md false (((k.value p).mul (k.value q)).add md (k.value z))).1) x y (s.name t d)),
      (.fmin f d a b, each (fun p q _ => k.minCode p q) x y 0),
      (.fmax f d a b, each (fun p q _ => k.largerCode p q) x y 0),
      (.fneg f d a, each (fun p _ _ => if (k.value p).isNan then k.nanCode
        else (p + k.signWeight) % (2 * k.signWeight)) x 0 0),
      (.fabs f d a, each (fun p _ _ => if (k.value p).isNan then k.nanCode else p % k.signWeight) x 0 0)],
      (Issues s t r.1 → exec r.1 s = .next ((s.begin t r.1).result t d r.2)) ∧
      ∀ p q : Nat,
        let lower := k.minCode p q
        let upper := k.largerCode p q
        (((k.value p).isNan || (k.value q).isNan) = true → lower = k.nanCode ∧ upper = k.nanCode) ∧
        (((k.value p).isNan || (k.value q).isNan) = false →
          (lower = p ∨ lower = q) ∧ (upper = p ∨ upper = q) ∧
          ∀ z ∈ [p, q], (k.value z).lt (k.value lower) = false ∧ (k.value upper).lt (k.value z) = false) ∧
        k.minCode 0 k.signWeight = k.signWeight ∧ k.minCode k.signWeight 0 = k.signWeight ∧
        k.largerCode 0 k.signWeight = 0 ∧ k.largerCode k.signWeight 0 = 0

/-- R238, R239, R245: the patterns of a format stand for its values, with its largest finite pattern and
canonical NaN. `round` takes a finite value to a pattern whose value is next to it below for a mode toward
zero, above for a mode away from it, and nearest for `.rn`, the even pattern of two at the same distance;
the exponent is unbounded above in this. A magnitude beyond the largest finite value gives the overflow
outcome, and a NaN or an infinity its own. R239: sums, products and quotients of values are exact. R246: an
integer is the same rounding, of the exact value itself. -/
def Obligations.Rounding : Prop :=
  (∀ f ∈ [(fp32, 0x7F7FFFFF, 0x7FC00000), (fp16, 0x7BFF, 0x7E00), (bf16, 0x7F7F, 0x7FC0), (e4m3, 0x7E, 0x7F),
      (e5m2, 0x7B, 0x7E), (e2m1, 7, 0), (e3m5, 0xFF, 0)],
    let k : Fmt := f.1
    k.maxCode = f.2.1 ∧ k.nanCode = f.2.2 ∧
    (∀ c ≤ f.2.1, (k.value c).ratio = some (k.magnitude c) ∧
      (k.signed = true → (k.value (k.signWeight + c)).ratio = some (-k.magnitude c))) ∧
    (∀ (m : Mode) (sat neg : Bool) (a b : Nat), 0 < b → neg = false ∨ k.signed = true →
      let x : ℚ := (a : ℚ) / b
      let signed (c : Nat) : Nat := if neg then k.signWeight + c else c
      let infinite : Nat × Bool := if k.special = .oneNan then (f.2.2, false) else (signed (f.2.1 + 1), false)
      ∃ c : Nat,
        ((m = .rz ∨ (m = .rd ∧ neg = false) ∨ (m = .ru ∧ neg = true)) → k.magnitude c ≤ x ∧ x < k.magnitude (c + 1)) ∧
        (((m = .rd ∧ neg = true) ∨ (m = .ru ∧ neg = false)) → x ≤ k.magnitude c ∧ ∀ e < c, k.magnitude e < x) ∧
        (m = .rn → ∀ e : Nat, |x - k.magnitude c| ≤ |x - k.magnitude e| ∧
          (e ≠ c → |x - k.magnitude c| = |x - k.magnitude e| → c % 2 = 0)) ∧
        (c ≤ f.2.1 → k.round m sat (.fin neg a b) = (signed c, false)) ∧
        (f.2.1 < c → k.round m sat (.fin neg a b) =
          if sat = true ∨ k.special = .none then (signed f.2.1, true)
          else match m with
            | .rn => infinite
            | .rz => (signed f.2.1, true)
            | .rd => if neg then infinite else (signed f.2.1, true)
            | .ru => if neg then (signed f.2.1, true) else infinite)) ∧
    (∀ (m : Mode) (sat : Bool), k.round m sat .nan = (f.2.2, decide (k.special = .none)) ∧
      ∀ neg : Bool, neg = false ∨ k.signed = true → k.round m sat (.inf neg) =
        if sat = true ∨ k.special = .none then ((if neg then k.signWeight else 0) + f.2.1, true)
        else if k.special = .oneNan then (f.2.2, false)
        else ((if neg then k.signWeight else 0) + f.2.1 + 1, false))) ∧
  (∀ (m : Mode) (sat : Bool) (a b : Nat), 0 < a → 0 < b →
    (e3m5.round m sat (.fin true a b)).1 = 0 ∧ (e3m5.round m sat (.inf true)).1 = 0) ∧
  (∀ (m : Mode) (x y : FVal) (p q : ℚ), x.ratio = some p → y.ratio = some q →
    (x.add m y).ratio = some (p + q) ∧ (x.mul y).ratio = some (p * q) ∧ x.neg.ratio = some (-p) ∧
    (q ≠ 0 → (x.div y).ratio = some (p / q)) ∧ (x.lt y = true ↔ p < q)) ∧
  ∀ (m : Mode) (neg : Bool) (a b : Nat), 0 < b →
    let x : ℚ := (a : ℚ) / b
    let n : Nat := roundQuot m neg a b
    ((m = .rz ∨ (m = .rd ∧ neg = false) ∨ (m = .ru ∧ neg = true)) → (n : ℚ) ≤ x ∧ x < n + 1) ∧
    (((m = .rd ∧ neg = true) ∨ (m = .ru ∧ neg = false)) → x ≤ n ∧ (n : ℚ) < x + 1) ∧
    (m = .rn → |x - n| ≤ 1 / 2 ∧ (|x - n| = 1 / 2 → n % 2 = 0))

/-- R240, R259, R260: FRCP, FRSQ, FEXP2 and FLOG2 write their result and complete. A NaN gives the canonical NaN
and the special operands what the tables list; FRCP is the rounded quotient and FRSQ the nearest value to
the root; FEXP2 of an integer and FLOG2 of a power of two are exact, other finite results lie within 2 units
in the last place of `pow2` and `logVal`, and FLOG2 within 2^-22 of it between 1/2 and 2.
PowersAndLogarithms says how near these two are to the real functions, and where a result is finite.

R261: FCMP writes its predicate from an exact comparison, false for an ordered condition with a NaN operand.

Where it rests on a choice of the model and not on a rule, the choice is log entry 13. -/
def Obligations.FloatFunctionsAndCompare : Prop :=
  ((∀ (s : State) (t : Thread) (d a : Name),
    ∀ r ∈ [(Instr.frcp d a, rcpF32), (.frsq d a, rsqF32), (.fexp2 d a, exp2F32), (.flog2 d a, log2F32)],
      (Issues s t r.1 → exec r.1 s = .next ((s.begin t r.1).result t d (r.2 (s.name t a)))) ∧
      ((f32 (s.name t a)).isNan = true → r.2 (s.name t a) = 0x7FC00000)) ∧
  (∀ r ∈ [(0x00000000#32, 0x7F800000#32, 0x7F800000#32, 0x3F800000#32, 0xFF800000#32),
      (0x80000000#32, 0xFF800000#32, 0xFF800000#32, 0x3F800000#32, 0xFF800000#32),
      (0x7F800000#32, 0x00000000#32, 0x00000000#32, 0x7F800000#32, 0x7F800000#32),
      (0xFF800000#32, 0x80000000#32, 0x7FC00000#32, 0x00000000#32, 0x7FC00000#32)],
    rcpF32 r.1 = r.2.1 ∧ rsqF32 r.1 = r.2.2.1 ∧ exp2F32 r.1 = r.2.2.2.1 ∧ log2F32 r.1 = r.2.2.2.2) ∧
  (∀ (x : Word) (neg : Bool) (a b : Nat), f32 x = .fin neg a b → a ≠ 0 →
    rcpF32 x = toF32 .rn (.fin neg b a) ∧
    (neg = true → rsqF32 x = 0x7FC00000 ∧ log2F32 x = 0x7FC00000) ∧
    (neg = false → 128 * b ≤ a → exp2F32 x = 0x7F800000) ∧
    (neg = true → 150 * b < a → exp2F32 x = 0) ∧
    (neg = false → ∃ n d, f32 (rsqF32 x) = .fin false n d ∧
      let half : ℚ := 2 ^ (floorLog2 n d - 24)
      ((n : ℚ) / d - half) ^ 2 * (a / b) ≤ 1 ∧ 1 ≤ ((n : ℚ) / d + half) ^ 2 * (a / b)) ∧
    (∀ g n d, f32 (exp2F32 x) = .fin g n d → ¬(neg = true ∧ 150 * b < a) →
      within (.fin g n d) (pow2 neg a b) (ulps 2 (pow2 neg a b)) = true) ∧
    (∀ g n d, neg = false → f32 (log2F32 x) = .fin g n d →
      within (.fin g n d) (logVal a b) (ulps 2 (logVal a b)) = true ∧
      (b ≤ 2 * a → a ≤ 2 * b → within (.fin g n d) (logVal a b) (scaled false 1 (-22)) = true))) ∧
  (∀ n : Int, -149 ≤ n → n ≤ 127 →
    exp2F32 (toF32 .rn (FVal.ofInt n)) = toF32 .rn (scaled false 1 n) ∧
    log2F32 (toF32 .rn (scaled false 1 n)) = toF32 .rn (FVal.ofInt n))) ∧
  (∀ (s : State) (t : Thread) (c p : BitVec 3) (a b : Name), Issues s t (.fcmp c p a b) →
    let x := f32 (s.name t a)
    let y := f32 (s.name t b)
    let nan := x.isNan || y.isNan
    ∃ v : Bool, exec (.fcmp c p a b) s = .next ((s.begin t (.fcmp c p a b)).resultPred t p v) ∧
      (nan = true → v = (c == 1 || c == 6)) ∧
      (nan = false → v = (match c.toNat with
        | 0 => !x.lt y && !y.lt x | 1 => x.lt y || y.lt x | 2 => x.lt y | 3 => !y.lt x
        | 4 => y.lt x | 5 => !x.lt y | 6 => false | _ => true)))

/-- R260: the values that the results of FEXP2 and FLOG2 are held to: `pow2` lies within 2^-60 of 2^x, relative
to it, and `logVal` within 2^-60 of log2 x. FEXP2 of a finite x below 128 gives a finite result, and so does
FLOG2 of a positive one.

Where it rests on a choice of the model and not on a rule, the choice is log entry 13. -/
def Obligations.PowersAndLogarithms : Prop :=
  (∀ (neg : Bool) (a b : Nat), 0 < b →
    let x : ℝ := (if neg then -1 else 1) * ((a : ℝ) / b)
    ∃ n d : Nat, pow2 neg a b = .fin false n d ∧ 0 < d ∧ |(n : ℝ) / d - (2 : ℝ) ^ x| ≤ (2 : ℝ) ^ x / 2 ^ 60) ∧
  (∀ a b : Nat, 0 < a → 0 < b →
    ∃ (g : Bool) (n d : Nat), logVal a b = .fin g n d ∧ 0 < d ∧
      |(if g then -1 else 1) * ((n : ℝ) / d) - Real.logb 2 ((a : ℝ) / b)| ≤ 1 / 2 ^ 60) ∧
  (∀ (x : Word) (neg : Bool) (a b : Nat), f32 x = .fin neg a b → (neg = true ∨ a < 128 * b) →
    ∃ (g : Bool) (n d : Nat), f32 (exp2F32 x) = .fin g n d) ∧
  (∀ (x : Word) (a b : Nat), f32 x = .fin false a b → a ≠ 0 →
    ∃ (g : Bool) (n d : Nat), f32 (log2F32 x) = .fin g n d)

/-- R246, R247, R263, R264: CVT, CVTS and CVTT convert the exact source value once, to the format or the range
of integers that their code names; a narrow target replaces element j of the destination and leaves the
others, and a clamped result sets the sticky flag.

R265: BSCALE replaces byte j of its destination with the block scale, the magnitude over six times the band
scale rounded up to E3M5, and leaves the others. -/
def Obligations.ConversionsAndBlockScale : Prop :=
  (∀ (s : State) (t : Thread) (m : BitVec 2) (d a : Name) (k : BitVec 4) (j : BitVec 3),
    ∀ r ∈ [(Instr.cvt m d a k j, Mode.ofBits m, false), (.cvts m d a k j, Mode.ofBits m, true),
      (.cvtt d a k j, Mode.rz, false)], cvtIndexOk k j = true → Issues s t r.1 →
      let x := s.name t a
      let elem (w : Nat) : Nat := x.toNat / 2 ^ (w * j.toNat) % 2 ^ w
      let source : FVal := match k.toNat with
        | 9 => .fin (decide (x.toInt < 0)) x.toInt.natAbs 1
        | 10 => .fin false x.toNat 1
        | 11 => bf16.value (elem 16)
        | 12 => fp16.value (elem 16)
        | 13 => e4m3.value (elem 8)
        | 14 => e5m2.value (elem 8)
        | 15 => e2m1.value (elem 4)
        | _ => fp32.value x.toNat
      let int (lo hi : Int) : Nat × Bool := match source with
        | .nan => (0, true)
        | .inf neg => ((BitVec.ofInt 32 (if neg then lo else hi)).toNat, true)
        | .fin neg p q =>
          let n : Int := if neg then -(roundQuot r.2.1 neg p q : Int) else roundQuot r.2.1 neg p q
          ((BitVec.ofInt 32 (clampTo lo hi n)).toNat, decide (n < lo ∨ hi < n))
      let v : Nat × Bool := match k.toNat with
        | 0 => bf16.round r.2.1 r.2.2 source
        | 1 => fp16.round r.2.1 r.2.2 source
        | 2 => e4m3.round r.2.1 r.2.2 source
        | 3 => e5m2.round r.2.1 r.2.2 source
        | 4 => e2m1.round r.2.1 r.2.2 source
        | 5 => int (-2147483648) 2147483647
        | 6 => int 0 4294967295
        | 7 => int (-32768) 32767
        | 8 => int (-128) 127
        | _ => fp32.round r.2.1 false source
      ∃ w : Word, exec r.1 s = .next (clamped (s.begin t r.1) t d w v.2) ∧
        (cvtIntoElement k = false → w = BitVec.ofNat 32 v.1) ∧
        (cvtIntoElement k = true → ∀ i, i * cvtWidth k + cvtWidth k ≤ 32 →
          w.toNat / 2 ^ (i * cvtWidth k) % 2 ^ cvtWidth k =
            if i = j.toNat then v.1 % 2 ^ cvtWidth k
            else (s.name t d).toNat / 2 ^ (i * cvtWidth k) % 2 ^ cvtWidth k)) ∧
  (∀ (s : State) (t : Thread) (j : BitVec 2) (d a b : Name), Issues s t (.bscale j d a b) →
    let v : Nat × Bool :=
      let magnitude : FVal := match f32 (s.name t a) with
        | .nan => .nan
        | .inf _ => .inf false
        | .fin _ p q => .fin false p q
      e3m5.round .ru true (match bf16.value ((s.name t b).toNat % 65536) with
        | .fin _ 0 _ => .nan
        | band => magnitude.div ((FVal.fin false 6 1).mul band))
    ∃ w : Word, exec (.bscale j d a b) s = .next (clamped (s.begin t (.bscale j d a b)) t d w v.2) ∧
      ∀ i < 4, w.toNat / 2 ^ (8 * i) % 256 =
        if i = j.toNat then v.1 % 256 else (s.name t d).toNat / 2 ^ (8 * i) % 256)

/-- R174, R243, R266, R267, R268: the packed words: exact results, saturated per element, the sticky flag set
when one was clamped; SATRD reads the flag and SATCL clears it.

R249, R269, R270, R271: the cross-lane words issue jointly for the lane set: each lane's result comes from
the registers that the lanes held at the issue.

R249, R270: the operations of the reductions, their identities, and the shapes in which they combine: the
tree joins the two halves of the positions at every level, and a prefix joins one position after the other.

Where it rests on a choice of the model and not on a rule, the choice is log entries 27 and 28. -/
def Obligations.PackedAndCrossLaneResults : Prop :=
  (∀ (s : State) (t : Thread) (d a b : Name),
    let lo (w : Word) : Int := (w.extractLsb' 0 16).toInt
    let hi (w : Word) : Int := (w.extractLsb' 16 16).toInt
    let x := s.name t a
    let y := s.name t b
    let near (z : Int) (n : Nat) : Int :=
      if n = 0 then z
      else if z % 2 ^ n * 2 = 2 ^ n then (z / 2 ^ n + 1) / 2 * 2
      else (2 * z + 2 ^ n) / (2 * 2 ^ n)
    let pairOf (p q : Int) : Word :=
      BitVec.ofInt 16 (clampTo (-32768) 32767 q) ++ BitVec.ofInt 16 (clampTo (-32768) 32767 p)
    let out (lo hi z : Int) : Bool := decide (z < lo ∨ hi < z)
    let out2 (p q : Int) : Bool := out (-32768) 32767 p || out (-32768) 32767 q
    let two (op : Int → Int → Int) : Word × Bool :=
      (pairOf (op (lo x) (lo y)) (op (hi x) (hi y)), out2 (op (lo x) (lo y)) (op (hi x) (hi y)))
    let one (l h z : Int) : Word × Bool := (BitVec.ofInt 32 (clampTo l h z), out l h z)
    (∀ r ∈ [
      (Instr.padd16s d a b, two fun p q => p + q), (.psub16s d a b, two fun p q => p - q),
      (.pmul16 d a b, two fun p q => near (p * q) 15), (.pmax16 d a b, two fun p q => if p < q then q else p),
      (.pmin16 d a b, two fun p q => if p < q then p else q),
      (.pmac16 d a b, one (-2147483648) 2147483647
        ((s.name t d).toInt + lo x * lo y + hi x * hi y)),
      (.shrrsS16 d a b, one (-32768) 32767 (near x.toInt (y.toNat % 32))),
      (.shrrsS8 d a b, one (-128) 127 (near x.toInt (y.toNat % 32))),
      (.shrrsN8 d a b, one 0 255 (near x.toInt (y.toNat % 32)))],
      Issues s t r.1 → exec r.1 s = .next (clamped (s.begin t r.1) t d r.2.1 r.2.2)) ∧
    (Issues s t (.satrd d) → exec (.satrd d) s =
      .next ((s.begin t (.satrd d)).result t d (if t.sat then 1 else 0))) ∧
    (Issues s t .satcl → exec .satcl s =
      .next ((s.begin t .satcl).modThread t.uid fun x => Thread.advance { x with sat := false }))) ∧
  (∀ (s : State) (t : Thread) (ts : List Thread) (d a b : Name) (k : BitVec 4) (o : BitVec 3),
    let at? (lane : Int) : Option Word := (ts.find? fun x => (x.lane : Int) == lane).map fun x => s.name x a
    let all : List Word := (List.range 64).map fun (p : Nat) => (at? p).getD (reduceIdentity o)
    ∀ r ∈ [
      (Instr.shfl d a b, fun x : Thread => (at? ((s.name x b).toNat % 64 : Nat)).getD (s.name x a)),
      (.slideDn k d a b, fun x => (at? (x.lane + (k.toNat + 1))).getD (s.name x b)),
      (.slideUp k d a b, fun x => (at? (x.lane - (k.toNat + 1))).getD (s.name x b)),
      (.xred o d a, fun _ => reduceTree (reduceOp o) 6 all),
      (.xscan o d a, fun x => reduceResult o (scanTo (reduceOp o) all x.lane))],
      IssuesJointly s t r.1 ts → exec r.1 s = .next ((s.jointly t r.1 ts).landEach ts d r.2)) ∧
  ((∀ x y : Word,
    reduceOp 0 x y = BitVec.ofNat 32 (fp32.round .rn false ((fp32.value x.toNat).add .rn (fp32.value y.toNat))).1 ∧
    reduceOp 1 x y = x + y ∧ reduceOp 2 x y = BitVec.ofNat 32 (fp32.largerCode x.toNat y.toNat) ∧
    reduceOp 3 x y = BitVec.ofNat 32 (fp32.minCode x.toNat y.toNat) ∧
    reduceOp 4 x y = (if x.toInt < y.toInt then y else x) ∧ reduceOp 5 x y = (if x.toInt < y.toInt then x else y)) ∧
  ([0, 1, 2, 3, 4, 5].map reduceIdentity =
    ([0x80000000, 0, 0xFF800000, 0x7F800000, 0x80000000, 0x7FFFFFFF] : List Word)) ∧
  (∀ (op : Word → Word → Word) (n : Nat) (l r : List Word) (x : Word), l.length = 2 ^ n → r.length = 2 ^ n →
    reduceTree op 0 [x] = x ∧ reduceTree op (n + 1) (l ++ r) = op (reduceTree op n l) (reduceTree op n r)) ∧
  (∀ (op : Word → Word → Word) (l : List Word) (p : Nat) (x : Word), l[p]? = some x →
    (p = 0 → scanTo op l p = x) ∧ ∀ k, p = k + 1 → scanTo op l p = op (scanTo op l k) x) ∧
  ∀ x : Word, (∀ o ∈ [(1 : BitVec 3), 4, 5], reduceResult o x = x) ∧
    ∀ o ∈ [(0 : BitVec 3), 2, 3], reduceResult o x = if (f32 x).isNan then 0x7FC00000 else x)

/-- R274, R286, R288, R289: MCFG sets the control words of a valid configuration and MRDC reads them; MACQ gives
a free array, or the crew's own, to the issuing crew and answers 1, else 0; MREL frees it. Each completes
for every lane of the set.

Where it rests on a choice of the model and not on a rule, the choice is log entries 28 and 58. -/
def Obligations.ArrayConfigAndOwner : Prop :=
  ∀ (s : State) (t l : Thread) (ts : List Thread) (m : Member) (d : BitVec 5) (r a b : Name),
    l = ts.headD t → s.member? l.member = some m →
    (IssuesJointly s t (.mcfg d a b) ts → d.toNat < m.desc.tiles →
      mcfgCause m d.toNat (s.name l a) (s.name l b) = none → exec (.mcfg d a b) s =
      .next (((s.jointly t (.mcfg d a b) ts).modMember m.id fun x => { x with
        tcfg := Map.set x.tcfg d.toNat (s.name l a)
        tband := Map.set x.tband d.toNat (s.name l b) }).finishAll ts)) ∧
    (IssuesJointly s t (.mrdc r d) ts → d.toNat < m.desc.tiles → exec (.mrdc r d) s =
      .next ((s.jointly t (.mrdc r d) ts).pairEach ts r (Map.get m.tband d.toNat ++ Map.get m.tcfg d.toNat))) ∧
    (IssuesJointly s t (.macq r) ts → m.desc.flags % 2 = 1 → exec (.macq r) s = .next (
      if (s.core l.core).owner = none ∨ (s.core l.core).owner = some (s.crewFor l) then
        ((s.jointly t (.macq r) ts).modCore l.core fun x => { x with owner := some (s.crewFor l) }).resultEach ts r 1
      else (s.jointly t (.macq r) ts).resultEach ts r 0)) ∧
    (IssuesJointly s t .mrel ts → (s.core l.core).owner = some (s.crewFor l) → exec .mrel s =
      .next (((s.jointly t .mrel ts).modCore l.core fun x => { x with owner := none }).finishAll ts))

/-- R276, R278, R287, R290 to R293: with room in the matrix queue and every check of the word passed, the
command enters the queue with what the lowest lane's registers and the tile configuration held at the issue.

R278: a queued command stands last in its core's queue with the threads it issued for.

R274, R275, R277, R286 to R293: which check of a matrix word fails first, with its cause and `xaddr`: a tile
at or above the declared count 0x0C0, a slot 0x0C1, an invalid configuration 0x0C2, a hidden format 0x006,
an unconfigured tile 0x0C3, operands of MMA that do not go together 0x0C4, an issuer that does not own the
array 0x0C5, MACQ by a member without it 0x0C6, operands of MLD, MST or DRAINQ 0x0C7, a tile's rows beyond
the scratchpad 0x082, and R202's cause at the ends of a drain's regions. R276: every thread of the lane set
takes the trap.

Where it rests on a choice of the model and not on a rule, the choice is log entry 28. -/
def Obligations.MatrixCommandsQueued : Prop :=
  (∀ (s : State) (t l : Thread) (ts : List Thread) (m : Member) (d e : BitVec 5) (k : BitVec 6) (r a b : Name),
    l = ts.headD t → s.member? l.member = some m → (s.core t.core).mq.length < 8 →
    let owns := (s.core l.core).owner = some (s.crewFor l)
    let queued (i : Instr) (c : MKind) : Prop := exec i s = .next ((s.jointly t i ts).queueMatrix l ts c)
    let cfg (n : Nat) : TileCfg := ⟨n, Map.get m.tcfg n, Map.get m.tband n⟩
    (∀ i ∈ [(Instr.mld d a b, MKind.mld), (.mst d a b, .mst)], IssuesJointly s t i.1 ts → d.toNat < m.desc.tiles →
      s.tileMoveCause m l d a b = none →
      queued i.1 (i.2 (cfg d.toNat) (s.name l a).toNat (loWord (s.pair l b)).toNat (hiWord (s.pair l b)))) ∧
    (IssuesJointly s t (.mma d e) ts → owns → d.toNat < m.desc.tiles → e.toNat < m.desc.tiles →
      m.mmaCause d.toNat e.toNat = none → queued (.mma d e) (.mma (cfg d.toNat) (cfg e.toNat)
        (cfg (cfgPartner (cfg d.toNat).word0)) (cfg (cfgPartner (cfg e.toNat).word0)) (rowMask ts))) ∧
    (IssuesJointly s t .mzero ts → owns → queued .mzero .mzero) ∧
    (∀ i ∈ [(Instr.shiftout k, MKind.shiftout k.toNat), (.shiftin k, .shiftin k.toNat)],
      IssuesJointly s t i.1 ts → owns → k.toNat < m.desc.acc → queued i.1 i.2) ∧
    (IssuesJointly s t (.accclr k) ts → k.toNat < m.desc.acc → queued (.accclr k) (.accclr k.toNat)) ∧
    (∀ i ∈ [(Instr.drainqBf16 r a b, DrainFmt.bf16), (.drainqE4m3 r a b, .e4m3), (.drainqE5m2 r a b, .e5m2),
        (.drainqE2m1 r a b, .e2m1)], IssuesJointly s t i.1 ts → owns →
      s.drainCause m i.2 (s.pair l a) (pairWord (s.name l b) (s.name l (b + 1))) (s.name l (b + 2))
        (s.name l (b + 3)) = none →
      queued i.1 (.drainq i.2 (s.pair l a) (pairWord (s.name l b) (s.name l (b + 1))) (s.name l r)
        (s.name l (b + 2)) (s.name l (b + 3))))) ∧
  (∀ (s : State) (t : Thread) (ts : List Thread) (k : MKind),
    ∃ q : MCmd, ((s.queueMatrix t ts k).core t.core).mq = (s.core t.core).mq ++ [q] ∧ q.id = s.nextId ∧ q.kind = k ∧
      q.uids = ts.map (·.uid) ∧ q.member = t.member ∧ q.pc = t.pc ∧ q.crew = s.crewFor t ∧
      (∀ c, c ≠ t.core → (s.queueMatrix t ts k).core c = s.core c) ∧
      (s.queueMatrix t ts k).mem = s.mem ∧ (s.queueMatrix t ts k).members = s.members) ∧
  (∀ (s : State) (t l : Thread) (ts : List Thread) (m : Member) (d e : BitVec 5) (k : BitVec 6) (r a b : Name),
    l = ts.headD t → s.member? l.member = some m →
    let fmt (n : Nat) : Nat := ((Map.get m.tcfg n).extractLsb' 0 4).toNat
    let rows (n : Nat) : Nat := ((Map.get m.tcfg n).extractLsb' 4 6).toNat + 1
    let cols (n : Nat) : Nat := ((Map.get m.tcfg n).extractLsb' 10 8).toNat + 1
    let partner (n : Nat) : Nat := ((Map.get m.tcfg n).extractLsb' 18 5).toNat
    let bits (f : Nat) : Nat := if f = 1 ∨ f = 2 then 16 else if f = 6 then 4 else 8
    let tile (n : Nat) : Bool × Nat × DWord := (decide (m.desc.tiles ≤ n), 0x0C0, BitVec.ofNat 64 n)
    let slot : Bool × Nat × DWord := (decide (m.desc.acc ≤ k.toNat), 0x0C1, BitVec.ofNat 64 k.toNat)
    let owner : Bool × Nat × DWord := (decide ((s.core l.core).owner ≠ some (s.crewFor l)), 0x0C5, 0)
    let w0 := s.name l a
    let w1 := s.name l b
    let f := w0.toNat % 16
    let n := w0.toNat / 2 ^ 10 % 256 + 1
    let p := w0.toNat / 2 ^ 18 % 32
    let config : List (Bool × Nat × DWord) := [
      (decide (w0.toNat / 2 ^ 23 ≠ 0 ∨ w1.toNat / 2 ^ 16 ≠ 0 ∨ 8 ≤ f ∨ (f ≠ 0 ∧ 1024 < n * bits f) ∨
        (f = 6 ∧ (n % 8 ≠ 0 ∨ p = d.toNat)) ∨ (f ≠ 6 ∧ p ≠ 0)), 0x0C2, w0.setWidth 64),
      (decide (f = 6 ∧ m.desc.tiles ≤ p), 0x0C0, BitVec.ofNat 64 p),
      (decide ((m.mask.getLsbD 1 = true ∧ 3 ≤ f ∧ f ≤ 5) ∨ (m.mask.getLsbD 2 = true ∧ 6 ≤ f ∧ f ≤ 7)), 0x006, 0)]
    let o := (s.name l a).toNat
    let pitch := (loWord (s.pair l b)).toNat
    let move : List (Bool × Nat × DWord) := [
      (decide (fmt d.toNat = 0), 0x0C3, BitVec.ofNat 64 d.toNat),
      (decide (o % 8 ≠ 0 ∨ pitch % 8 ≠ 0) || brokenBarrierWord (hiWord (s.pair l b)), 0x0C7, BitVec.ofNat 64 o),
      (decide (m.desc.scratch * 65536 < o + (rows d.toNat - 1) * pitch + cols d.toNat * bits (fmt d.toNat) / 8), 0x082,
        0xFFFFFF8000000000 + BitVec.ofNat 64 o)]
    let together : Prop := (fmt d.toNat = fmt e.toNat ∧ fmt d.toNat ∈ [1, 2, 5, 6]) ∨
      (fmt d.toNat ∈ [3, 4] ∧ fmt e.toNat ∈ [3, 4])
    let scales (x : Nat) : Prop := fmt (partner x) = 7 ∧ rows x ≤ rows (partner x) ∧ cols x / 8 ≤ cols (partner x)
    let product : List (Bool × Nat × DWord) := [
      (decide (fmt d.toNat = 0), 0x0C3, BitVec.ofNat 64 d.toNat), (decide (fmt e.toNat = 0), 0x0C3, BitVec.ofNat 64 e.toNat),
      (decide (¬together ∨ cols d.toNat ≠ cols e.toNat ∨ rows e.toNat < 8 ∨
        (fmt d.toNat = 6 ∧ ¬(scales d.toNat ∧ scales e.toNat))), 0x0C4, BitVec.ofNat 64 (d.toNat * 256 + e.toNat))]
    let dest := s.pair l a
    let scale := pairWord (s.name l b) (s.name l (b + 1))
    let c := s.name l (b + 2)
    let drained (q : DrainFmt) : List (Bool × Nat × DWord) :=
      let width := 8 * (c.toNat / 2 ^ 24 % 8 + 1)
      let down := c.toNat / 2 ^ 16 % 64
      (decide (c.toNat / 2 ^ 27 ≠ 0 ∨ c.toNat / 2 ^ 22 % 4 ≠ 0 ∨ c.toNat % 4 ≠ 0 ∨ dest.toNat % 4 ≠ 0 ∨
          (q = .e2m1 ∧ scale.toNat % 8 ≠ 0)) || brokenBarrierWord (s.name l (b + 3)), 0x0C7, c.setWidth 64) ::
        s.edgeChecks m dest (down * (c.toNat % 65536) +
          (match q with | .bf16 => 2 * width | .e2m1 => width / 2 | _ => width)) ++
        (if q = .e2m1 then s.edgeChecks m scale (8 * (down + 1) + 2) else [])
    (mcfgCause m d.toNat w0 w1 = firstFailed config ∧ s.tileMoveCause m l d a b = firstFailed move ∧
      m.mmaCause d.toNat e.toNat = firstFailed product ∧
      ∀ q, s.drainCause m q dest scale c (s.name l (b + 3)) = firstFailed (drained q)) ∧
    ∀ i ∈ [
      (Instr.mcfg d a b, false, tile d.toNat :: config), (.mrdc r d, false, [tile d.toNat]),
      (.macq r, false, [(decide (m.desc.flags % 2 = 0), 0x0C6, 0)]), (.mrel, false, [owner]),
      (.mld d a b, true, tile d.toNat :: move), (.mst d a b, true, tile d.toNat :: move),
      (.mma d e, true, tile d.toNat :: tile e.toNat :: owner :: product), (.mzero, true, [owner]),
      (.shiftout k, true, [slot, owner]), (.shiftin k, true, [slot, owner]), (.accclr k, true, [slot]),
      (.drainqBf16 r a b, true, owner :: drained .bf16), (.drainqE4m3 r a b, true, owner :: drained .e4m3),
      (.drainqE5m2 r a b, true, owner :: drained .e5m2), (.drainqE2m1 r a b, true, owner :: drained .e2m1)],
      IssuesJointly s t i.1 ts → (i.2.1 = true → (s.core t.core).mq.length < 8) →
      (∀ x ∈ ts, s.trapHeld x.uid = false) → ∀ cause addr, firstFailed i.2.2 = some (cause, addr) →
      exec i.1 s = .next ((s.jointly t i.1 ts).trapEach ts cause addr))

/-- R250, R278, R290, R291, R292: the command at the head of the queue executes on the array and the accumulator
slots and leaves the queue; nothing else of the core, its threads and the member's memory changes, but that
the threads and commands which are ordered after it learn of it. SHIFTOUT gives each element of its slot the
word of its cell, SHIFTIN each cell the word of its element, and the other slots keep theirs.

R250, R251, R291: an MMA step on canonical cells: the cell at a masked row and a column below B's rows takes
its steps in order from its old value, and every other cell keeps its value.

R242, R244, R250, R251: one step of a cell, by the formats of its tiles: the group of a step is one product
of BF16 or FP16 elements, two of FP8 or INT8 elements, or eight of E2M1 elements under the block scales and
the band scales; it is exact, and a floating cell takes it with one rounding. Elements past the columns are
zero.

Where it rests on a choice of the model and not on a rule, the choice is log entries 47 and 90. -/
def Obligations.ArrayCommandsExecute : Prop :=
  (∀ (s : State) (c : Core) (q : MCmd) (m : Member), s.input = .id q.id → s.headCmd q.id = some (c, q, m) →
    s.core c.id = c → s.member? m.id = some m →
    let does (e : Instr) (cells accs : Map 32) : Prop := ∃ s' : State, exec e s = .next s' ∧
      (s'.core c.id).unclocked = { c with
        cells := cells, mq := c.mq.drop 1, mclk := cmdClock c q, stream := s.streamsNext c.mq }.unclocked ∧
      (s'.member? m.id).map (·.accs) = some accs ∧ (s'.member? m.id).map (·.scratch) = some m.scratch ∧
      s'.mem = s.mem ∧ s'.threads.map Thread.unclocked = s.threads.map Thread.unclocked ∧
      ∀ t ∈ s.threads, t.hears q.id (q.uids.contains t.uid) .m (cmdClock c q) ∈ s'.threads
    (∀ x y px py rows, q.kind = .mma x y px py rows → does .mmaExecute (mmaCells m c x y px py rows) m.accs) ∧
    (q.kind = .mzero → does .mzeroExecute [] m.accs) ∧
    (∀ k, q.kind = .shiftout k → does .shiftoutExecute [] (slotFrom m.accs k c.cells)) ∧
    (∀ k, q.kind = .shiftin k → does .shiftinExecute (cellsFrom m.accs k) m.accs) ∧
    (∀ k, q.kind = .accclr k → does .accclrExecute c.cells (Map.clear m.accs (k * 4096) 4096)) ∧
    (Map.wf c.cells = true → Map.wf m.accs = true → (∀ x ∈ c.cells, x.1 < 4096) → ∀ k i j, i < 64 → j < 64 →
      Map.get (slotFrom m.accs k c.cells) (k * 4096 + (64 * i + j)) = Map.get c.cells (64 * i + j) ∧
      Map.get (cellsFrom m.accs k) (64 * i + j) = Map.get m.accs (k * 4096 + (64 * i + j)) ∧
      Map.get (Map.clear m.accs (k * 4096) 4096) (k * 4096 + (64 * i + j)) = 0 ∧
      ∀ n, n ≠ k → Map.get (slotFrom m.accs k c.cells) (n * 4096 + (64 * i + j)) =
          Map.get m.accs (n * 4096 + (64 * i + j)) ∧
        Map.get (Map.clear m.accs (k * 4096) 4096) (n * 4096 + (64 * i + j)) =
          Map.get m.accs (n * 4096 + (64 * i + j)))) ∧
  (∀ (m : Member) (c : Core) (x y px py : TileCfg) (rows : BitVec 64) (i j : Nat), Map.wf c.cells = true → j < 64 →
    cfgRows y.word0 ≤ 64 →
    Map.get (mmaCells m c x y px py rows) (64 * i + j) =
      if i < cfgRows x.word0 ∧ rows.getLsbD i = true ∧ j < cfgRows y.word0 then
        (List.range (mmaSteps x y)).foldl (cellStep x y
          ⟨m.tileRow x.tile i, m.tileRow y.tile j, m.tileRow px.tile i, m.tileRow py.tile j⟩)
          (Map.get c.cells (64 * i + j))
      else Map.get c.cells (64 * i + j)) ∧
  (∀ (x y : TileCfg) (r : CellRows) (acc : Word) (k : Nat),
    let fa := cfgFmt x.word0
    let fb := cfgFmt y.word0
    let elem (row w e : Nat) : Nat := row / 2 ^ (w * e) % 2 ^ w
    let real (f : Fmt) (row w e : Nat) : FVal := if e < cfgCols x.word0 then f.value (elem row w e) else .fin false 0 1
    let int (row e : Nat) : Word :=
      if e < cfgCols x.word0 then (BitVec.ofNat 8 (elem row 8 e)).signExtend 32 else 0
    let half : List (Nat × Fmt) := [(1, bf16), (2, fp16)]
    let byte : List (Nat × Fmt) := [(3, e4m3), (4, e5m2)]
    let takes (g : FVal) : Prop :=
      cellStep x y r acc k = BitVec.ofNat 32 (fp32.round .rn false ((fp32.value acc.toNat).add .rn g)).1
    (∀ p ∈ half, fa = p.1 → fb = p.1 → takes ((real p.2 r.a 16 k).mul (real p.2 r.b 16 k))) ∧
    (∀ p ∈ byte, ∀ q ∈ byte, fa = p.1 → fb = q.1 → takes (((real p.2 r.a 8 (2 * k)).mul (real q.2 r.b 8 (2 * k))).add .rn
      ((real p.2 r.a 8 (2 * k + 1)).mul (real q.2 r.b 8 (2 * k + 1))))) ∧
    (fa = 5 → fb = 5 → cellStep x y r acc k = acc + int r.a (2 * k) * int r.b (2 * k) +
      int r.a (2 * k + 1) * int r.b (2 * k + 1)) ∧
    (fa = 6 → fb = 6 →
      let term (e : Nat) : FVal := (real e2m1 r.a 4 (8 * k + e)).mul (real e2m1 r.b 4 (8 * k + e))
      let sum : FVal := (List.range 7).foldl (fun g e => g.add .rn (term (e + 1))) (term 0)
      takes ((((sum.mul (e3m5.value (elem r.sa 8 k))).mul (e3m5.value (elem r.sb 8 k))).mul
        (bf16.value (x.word1.toNat % 65536))).mul (bf16.value (y.word1.toNat % 65536)))))

/-- R281, R282, R287, R293, R302: MLD, MST and DRAINQ at the head of the queue. When every piece of their rows
passes its checks they move them all and complete: the command leaves the queue, an arrival for its whole
byte count sets out when its barrier word asks for one, and no other core changes and no thread, but by what
the writes hit and that those which are ordered after the command learn of it. A row whose peer has gone is
left out and reported once. A row that fails otherwise ends the command, with the rows before it moved:
MATRIX_COMMAND_FAILURE delivers cause 0x0C8, or 0x0D9 for another member's dry-fit slot, with a progress
record, and the command leaves the queue too.

R272, R281, R287: what an MLD puts into its tile and what an MST or a DRAINQ writes, in the member's own
scratchpad: byte j of row r of the tile comes from byte j of the row's extent, every other byte of the tile
is zero, no other tile changes; each row's bytes stand where no later row lies, every other byte is as
before; and an MLD or MST counts its rows times its row bytes.

R272, R284, R287, R293, R294, R295: what an MST and a DRAINQ write, row by row, and the cells that a drain
leaves. An MST writes the first bytes of each row of its tile. A drain multiplies each cell of its rectangle
exactly and rounds it once: to BF16, to FP8 with the saturating outcome, or to E2M1 under the band scale of
the rectangle and the scale of each block of 8, which it writes behind the rows; the cells of the rectangle
become zero and no other changes.

Where it rests on a choice of the model and not on a rule, the choice is log entries 11, 47, 49, 59 and 109. -/
def Obligations.MemoryCommandsExecute : Prop :=
  (∀ (s : State) (c : Core) (q : MCmd) (m : Member), s.input = .id q.id →
    s.headCmd q.id = some (c, q, m) → s.core c.id = c →
    let rows := q.kind.rows c m
    let passes (r : List Piece) : Prop := ∀ p ∈ r, ∃ (l : Loc) (leaf : Option Nat), s.checkPiece m.id p = .pass l leaf
    let moving (keep : List Bool) (error : Option Nat) : State :=
      let r := s.moveRows c q m keep
      (r.1.endCmd c q).cmdArrival q.id q.crew m.id q.kind.bar r.2.1 r.2.2 error (cmdClock c q)
    ∀ e : Instr, (e = .mldExecute ∧ q.kind.isMld = true) ∨ (e = .mstExecute ∧ q.kind.isMst = true) ∨
        (e = .drainqExecute ∧ q.kind.isDrain = true) →
    ((∀ r ∈ rows, passes r) →
      let t := moving (List.replicate rows.length true) none
      exec e s = .next t ∧ (t.core c.id).unclocked.mq = { c with mq := c.mq.drop 1 }.unclocked.mq ∧
      (∀ k, k ≠ c.id → (t.core k).unclocked = (s.core k).unclocked) ∧
      (∀ x ∈ s.threads, x.monitor = none → x.hears q.id (q.uids.contains x.uid) .m (cmdClock c q) ∈ t.threads) ∧
      t.arrivals.map (fun a => (a.cmd, a.crew, a.loc, a.bytes, a.moved, a.error)) =
        s.arrivals.map (fun a => (a.cmd, a.crew, a.loc, a.bytes, a.moved, a.error)) ++
        (if q.kind.bar.getLsbD 31 then
          [(q.id, q.crew, (⟨m.id + 1, (q.kind.bar.extractLsb' 0 24).toNat⟩ : Loc),
            (s.moveRows c q m (List.replicate rows.length true)).2.1,
            (s.moveRows c q m (List.replicate rows.length true)).2.2, none)] else [])) ∧
    (∀ pre r rest, rows = pre ++ r :: rest → (∀ x ∈ pre, passes x) → (∀ x ∈ rest, passes x) →
      ∀ under x, s.checkPieces m.id r = .fail under x → (under = 0x083 ∨ under = 0x084) →
      let addr := (r.head?.map (·.addr)).getD 0
      let dest := if (addr - clusterBase).toNat < 2 ^ 26 then (addr - clusterBase).toNat / 2 ^ 24 else 0
      let before := sentTo (pre.map fun y => (rowAddr y, rowSize y)) addr
      exec e s = .next (((moving (List.replicate pre.length true ++ false :: List.replicate rest.length true)
        none).cmdArrival q.id q.crew q.member q.kind.bar 0 0 (some 0x0DA) (cmdClock c q)).deliver q.member q.crew
          (q.uids.headD 0) ⟨0x0DA, addr, some ⟨0x0DA, 0, q.pc, addr, before.length,
            (before.map (·.2)).foldl (· + ·) 0, q.kind.shape, dest⟩, false⟩)) ∧
    (∀ pre r rest, rows = pre ++ r :: rest → (∀ x ∈ pre, passes x) →
      ∀ under addr, s.checkPieces m.id r = .fail under addr → under ≠ 0x083 → under ≠ 0x084 →
      let cause := if under = 0x092 then 0x0D9 else 0x0C8
      exec e s = .next s ∧
      exec .matrixCommandFailure s = .next ((moving (List.replicate pre.length true) (some under)).deliver q.member
        q.crew (q.uids.headD 0) ⟨cause, addr, some ⟨cause, under, q.pc, addr, pre.length,
          (pre.map rowSize).foldl (· + ·) 0, q.kind.shape, 0⟩, false⟩)) ∧
    (∀ pre r rest, rows = pre ++ r :: rest → (∀ x ∈ pre, passes x) → ∀ w, s.checkPieces m.id r = .wait w →
      exec e s = .next (s.waitOn m.part (matrixActor c q) w))) ∧
  (∀ (s : State) (c : Core) (q : MCmd) (m : Member), s.member? m.id = some m → s.core c.id = c → q.member = m.id →
    m.divert = none → m.isReleased = false → m.desc.scratch ≤ 96 → s.scratchWf →
    (∀ r ∈ q.kind.rows c m, ∀ p ∈ r, ∃ (l : Loc) (leaf : Option Nat), s.checkPiece m.id p = .pass l leaf) →
    let r := s.moveRows c q m (List.replicate (q.kind.rows c m).length true)
    (∀ t off pitch w, q.kind = .mld t off pitch w → cfgRowBytes t.word0 ≤ 128 → Map.wf m.tiles = true →
      off + (cfgRows t.word0 - 1) * pitch + cfgRowBytes t.word0 ≤ m.scratchBytes →
      (∀ x < m.scratchBytes, ((s.shadowOf ⟨m.id + 1, x⟩).read (agentC q.id) (cmdClock c q) 0).2 = false) →
      r.2 = (cfgRows t.word0 * cfgRowBytes t.word0, 0) ∧ r.1.mem = s.mem ∧
      ∃ x : Member, r.1.member? m.id = some x ∧ x.scratch = m.scratch ∧
        (∀ i j, i < cfgRows t.word0 → j < cfgRowBytes t.word0 →
          Map.get x.tiles (t.tile * 8192 + 128 * i + j) = m.scratch.byte (off + i * pitch + j)) ∧
        (∀ i j, i < 64 → j < 128 → cfgRows t.word0 ≤ i ∨ cfgRowBytes t.word0 ≤ j →
          Map.get x.tiles (t.tile * 8192 + 128 * i + j) = 0) ∧
        ∀ k, k < t.tile * 8192 ∨ t.tile * 8192 + 8192 ≤ k → Map.get x.tiles k = Map.get m.tiles k) ∧
    (q.kind.isMld = false →
      let ws := q.kind.writes c m
      let at_ (w : DWord × List Byte) : Nat := (w.1 - localBase).toNat
      (∀ w ∈ ws, at_ w + w.2.length ≤ m.scratchBytes) →
      (∀ x : Loc, (∀ w ∈ ws, x.space ≠ m.id + 1 ∨ x.off < at_ w ∨ at_ w + w.2.length ≤ x.off) →
        r.1.bytesAt x 1 = s.bytesAt x 1) ∧
      (∀ pre w rest, ws = pre ++ w :: rest → ∀ j < w.2.length,
        (∀ v ∈ rest, at_ w + j < at_ v ∨ at_ v + v.2.length ≤ at_ w + j) →
        r.1.bytesAt ⟨m.id + 1, at_ w + j⟩ 1 = [w.2.getD j 0]) ∧
      r.2 = ((ws.map fun w => w.2.length).foldl (· + ·) 0,
        ((ws.filter fun w => s.ownRow m w.1).map fun w => w.2.length).foldl (· + ·) 0) ∧
      ∀ t off pitch w, q.kind = .mst t off pitch w → r.2.1 = cfgRows t.word0 * cfgRowBytes t.word0)) ∧
  (∀ (c : Core) (m : Member) (dest scale : DWord) (mult config bar : Word),
    let rows := (config.extractLsb' 16 6).toNat + 1
    let cols := 8 * ((config.extractLsb' 24 3).toNat + 1)
    let pitch := (config.extractLsb' 0 16).toNat
    let y (i j : Nat) : FVal := (f32 (Map.get c.cells (64 * i + j))).mul (f32 mult)
    let elem (bs : List Byte) (w j : Nat) : Nat := leNat bs / 2 ^ (w * j) % 2 ^ w
    (∀ (t : TileCfg) (off p : Nat) (w : Word) (i : Nat), i < cfgRows t.word0 →
      ∃ bs : List Byte, (MKind.writes (.mst t off p w) c m)[i]? = some (localBase + BitVec.ofNat 64 (off + i * p), bs) ∧
        bs.length = cfgRowBytes t.word0 ∧
        ∀ j < 128, j < bs.length → bs[j]? = some (Map.get m.tiles (8192 * t.tile + 128 * i + j))) ∧
    (∀ f ∈ [(DrainFmt.bf16, bf16, 16, false), (.e4m3, e4m3, 8, true), (.e5m2, e5m2, 8, true)],
      let ws := MKind.writes (.drainq f.1 dest scale mult config bar) c m
      ws.length = rows ∧ ∀ i < rows, ∃ bs : List Byte, ws[i]? = some (dest + BitVec.ofNat 64 (i * pitch), bs) ∧
        bs.length = cols * f.2.2.1 / 8 ∧
        ∀ j < cols, elem bs f.2.2.1 j = (f.2.1.round .rn f.2.2.2 (y i j)).1) ∧
    (let ws := MKind.writes (.drainq .e2m1 dest scale mult config bar) c m
      let largest (p : Nat → Nat → Prop) (v : ℚ) : Prop := 0 ≤ v ∧
        (∀ i j n d neg, p i j → y i j = .fin neg n d → (n : ℚ) / d ≤ v) ∧
        (v = 0 ∨ ∃ i j n d neg, p i j ∧ y i j = .fin neg n d ∧ (n : ℚ) / d = v)
      ∃ (band : Nat) (scales : Nat → Nat → Nat) (a : Nat) (b : Nat), 0 < b ∧
        largest (fun i j => i < rows ∧ j < cols) ((a : ℚ) / b) ∧
        band = (if a = 0 then 0x3F80 else Nat.min (bf16.round .ru false (.fin false a (189 * b))).1 0x7F7F) ∧
        (∀ i < rows, ∀ g < cols / 8, ∃ n d : Nat, 0 < d ∧
          largest (fun i' j => i' = i ∧ 8 * g ≤ j ∧ j < 8 * g + 8) ((n : ℚ) / d) ∧
          scales i g = (e3m5.round .ru false ((FVal.fin false n d).div (FVal.mul (.fin false 6 1) (bf16.value band)))).1) ∧
        ws.length = 2 * rows + 1 ∧
        ws[2 * rows]? = some (scale + BitVec.ofNat 64 (8 * rows), leBytes 2 band) ∧
        ∀ i < rows, ∃ bs ss : List Byte,
          ws[2 * i]? = some (dest + BitVec.ofNat 64 (i * pitch), bs) ∧ bs.length = cols / 2 ∧
          ws[2 * i + 1]? = some (scale + BitVec.ofNat 64 (8 * i), ss) ∧ ss.length = 8 ∧
          (∀ g < 8, elem ss 8 g = if g < cols / 8 then scales i g else 0) ∧
          ∀ j < cols, elem bs 4 j = match y i j with
            | .nan => 0
            | .inf neg => if neg then 15 else 7
            | .fin neg n d =>
              if scales i (j / 8) = 0 ∨ n = 0 then 0
              else (e2m1.round .rn true ((FVal.fin neg n d).div
                (FVal.mul (e3m5.value (scales i (j / 8))) (bf16.value band)))).1) ∧
    ∀ (f : DrainFmt) (cells : Map 32) (i j : Nat), j < 64 →
      Map.get (MKind.cellsLeft (.drainq f dest scale mult config bar) cells) (64 * i + j) =
        if i < rows ∧ j < cols then 0 else Map.get cells (64 * i + j))

/-- R297, R298, R319 to R322: with a free entry and every check passed, a copy instruction enters its crew's
queue and completes: the entry holds the direction, the addresses and the shape that its operands held, and
nothing has moved yet.

R297, R298, R319 to R322: which check of a copy instruction fails first, with its cause and `xaddr`: the
shape 0x0D0, the ring 0x0D5 and 0x0D6, R202's cause at the ends of a region, the barrier 0x0D2, the counter
0x141; CPYM's core or mask 0x0D4; CPYA's slot 0x0C1, its operands 0x0DD and its rows 0x082; CPYN's peer
0x0D8; and then, for a crew without copy queue entries, 0x0D1. The issuing thread traps.

R300, R301, R306, R316, R322: a command that is next in its crew, with everything it is ordered after
complete, starts and moves its rows. A command whose rows have all moved, or whose peer has answered, sets
its arrivals out; once they are made, or at once when it makes none, its decrements set out and its entry
frees. Its bytes are charged when they have moved. One that has met a failure, or that its peer refuses,
does the same with the error and no decrement.

R301, R319 to R322: which bytes a copy moves. A copy all of whose rows pass their checks reads them all and
then writes each to every destination; between scratchpads, with no race and no overlap, each destination
byte is the source byte at its place, and every other byte is as before. CPYA moves the words of an
accumulator slot to or from its rows, a put sends the bytes of its rows, and the answer of a get lands in
its rows.

R308, R325: STADV advances the schedule counter, at most to the number of entries, and returns it; an entry
that the counter has released and that comes next starts a command of its own.

Where it rests on a choice of the model and not on a rule, the choice is log entries 11 and 53. -/
def Obligations.CopiesQueuedAndMoved : Prop :=
  (∀ (s : State) (t : Thread) (m : Member) (d a b : Name) (k : BitVec 6) (e : Peer),
    let p := s.shape t b
    let w := hiWord (s.pair t b)
    let o := localBase + (s.name t a).setWidth 64
    let q := cpyaShape (loWord (s.pair t b)).toNat w
    ∀ r ∈ [
      (Instr.cpy d a b, CopyKind.cpy, s.pair t d, s.pair t a, p, s.cpyCause m t d a b),
      (.cpym d a b, .cpym (p.sel % 16), (s.name t d).setWidth 64, s.pair t a, p, s.cpymCause m t d a b),
      (.cpyaOut k a b, .acc k.toNat true, o, o, q, s.cpyaCause m t k a b),
      (.cpyaIn k a b, .acc k.toNat false, o, o, q, s.cpyaCause m t k a b),
      (.cpynPut d a b, .put e, s.pair t d, s.pair t a, p, s.cpynCause m t false a b),
      (.cpynGet d a b, .get e, s.pair t a, s.pair t d, p, s.cpynCause m t true a b)],
      Issues s t r.1 → s.entryReady r.1 t = true → s.member? t.member = some m → m.desc.cqcrew ≠ 0 →
      r.2.2.2.2.2 = none → (r.2.1 = .put e ∨ r.2.1 = .get e → s.peerEntry m.part p.sel = some e) →
      ∃ s' : State, ∃ t' : Thread, ∃ c : Copy, exec r.1 s = .next s' ∧ s'.copies = s.copies ++ [c] ∧ c.id = s.nextId ∧ c.kind = r.2.1 ∧
        c.dst = r.2.2.1 ∧ c.src = r.2.2.2.1 ∧ c.rowbytes = r.2.2.2.2.1.rowbytes ∧
        c.rows = r.2.2.2.2.1.rows ∧ c.dpitch = r.2.2.2.2.1.dpitch ∧ c.spitch = r.2.2.2.2.1.spitch ∧
        c.arrive = r.2.2.2.2.1.arrive ∧ c.done = r.2.2.2.2.1.done ∧ c.crew = s.crewFor t ∧ c.uid = t.uid ∧
        c.started = false ∧ s'.thread? t.uid = some t' ∧ t'.pc = t.pc + 1 ∧ t'.wait = .none ∧
        t'.regs = t.regs ∧ s'.mem = s.mem ∧ (∀ u, u ≠ t.uid → s'.thread? u = s.thread? u) ∧
        ∀ j, (s'.member? j).map (·.scratch) = (s.member? j).map (·.scratch)) ∧
  (∀ (s : State) (t : Thread) (m : Member) (d a b : Name) (k : BitVec 6), s.member? t.member = some m →
    let w1 := s.name t (b + 1)
    let w2 := s.name t (b + 2)
    let w3 := s.name t (b + 3)
    let handle := s.name t (b + 4)
    let rowbytes := (s.name t b).toNat
    let rows := w1.toNat % 65536
    let sel := w1.toNat / 65536
    let pitch (units : Nat) : Nat := if units = 0 then rowbytes else 64 * units
    let sp := pitch (w2.toNat / 65536)
    let dp := pitch (w2.toNat % 65536)
    let arrive := w3.getLsbD 31
    let joint := w3.getLsbD 29
    let ring := w3.getLsbD 28
    let ringno := w3.toNat / 2 ^ 24 % 16
    let off := w3.toNat % 2 ^ 24
    let lb : DWord := 0xFFFFFF8000000000
    let cb (c : Nat) : DWord := 0xFFFFFF8100000000 + BitVec.ofNat 64 (c * 2 ^ 24) + (s.name t d).setWidth 64
    let ends (x : DWord) (p : Nat) : List (Bool × Nat × DWord) := s.edgeChecks m x ((rows - 1) * p + rowbytes)
    let shape (more : Bool) : Bool × Nat × DWord :=
      (decide (rowbytes = 0 ∨ 2 ^ 24 < rowbytes ∨ rows = 0 ∨ (arrive = false ∧ off ≠ 0) ∨ off % 16 ≠ 0 ∨
        (ring = false ∧ ringno ≠ 0)) || more, 0x0D0, w3.setWidth 64)
    let barrier (o : Member) (base : DWord) : Bool × Nat × DWord :=
      (arrive && (decide (o.desc.scratch * 65536 < off + 16) ||
        o.regions.any fun r => decide (r.off ≤ off ∧ off < r.off + r.units * 65536)), 0x0D2, base + BitVec.ofNat 64 off)
    let home (dst : DWord) : Bool × Nat × DWord :=
      match s.target m dst 1 with
      | .ok (.scratch o x) => barrier o (dst - BitVec.ofNat 64 x)
      | _ => barrier m lb
    let counter : Bool × Nat × DWord := (joint && (s.counter? m.part handle).isNone, 0x141, handle.setWidth 64)
    let src := s.pair t a
    let dst := s.pair t d
    let cpy : List (Bool × Nat × DWord) :=
      [shape (decide (sel ≠ 0) || (ring && d != 0)),
        (ring && decide (m.desc.rings ≤ ringno), 0x0D5, BitVec.ofNat 64 ringno),
        (ring && (match m.rings.find? fun r => r.num == ringno with
          | none => true
          | some r => !r.copyProd || decide (r.bytes < rows * rowbytes)), 0x0D6, BitVec.ofNat 64 ringno)] ++
      ends src sp ++ (if ring then [] else ends dst dp) ++ [if ring then barrier m lb else home dst, counter]
    let picked := [0, 1, 2, 3].filter fun c => (sel % 16).testBit c
    let cpym : List (Bool × Nat × DWord) :=
      [(decide (192 ≤ t.core ∨ sel % 16 = 0), 0x0D4, BitVec.ofNat 64 (sel % 16)), shape (ring || decide (16 ≤ sel))] ++
      ends src sp ++ (picked.flatMap fun c => ends (cb c) dp) ++ (picked.map fun c => home (cb c)) ++ [counter]
    let o := (s.name t a).toNat
    let p := (loWord (s.pair t b)).toNat
    let cpya : List (Bool × Nat × DWord) :=
      [(decide (m.desc.acc ≤ k.toNat), 0x0C1, BitVec.ofNat 64 k.toNat),
        (decide (o % 16 ≠ 0 ∨ p % 16 ≠ 0) || brokenBarrierWord (hiWord (s.pair t b)), 0x0DD, BitVec.ofNat 64 o),
        (decide (m.desc.scratch * 65536 < o + 63 * p + 256), 0x082, lb + BitVec.ofNat 64 o)]
    let peer : Bool := decide (sel < 64) &&
      ((((s.part? m.part).bind fun x => (peersOf x.cfg)[sel]?).map (·.valid)).getD false)
    let cpyn (q : Nat) : List (Bool × Nat × DWord) :=
      [shape ring, (!peer, 0x0D8, BitVec.ofNat 64 sel)] ++ ends src q ++ [barrier m lb, counter]
    (s.cpyCause m t d a b = firstFailed cpy ∧ s.cpymCause m t d a b = firstFailed cpym ∧
      s.cpyaCause m t k a b = firstFailed cpya ∧ s.cpynCause m t false a b = firstFailed (cpyn sp) ∧
      s.cpynCause m t true a b = firstFailed (cpyn dp)) ∧
    ∀ r ∈ [(Instr.cpy d a b, cpy), (.cpym d a b, cpym), (.cpyaOut k a b, cpya), (.cpyaIn k a b, cpya),
      (.cpynPut d a b, cpyn sp), (.cpynGet d a b, cpyn dp)], Issues s t r.1 → s.entryReady r.1 t = true →
      ∀ cause addr, firstFailed (r.2 ++ [(decide (m.desc.cqcrew = 0), 0x0D1, 0)]) = some (cause, addr) →
      exec r.1 s = .next ((s.begin t r.1).trap t.uid cause addr)) ∧
  (∀ (s : State) (c : Copy) (m : Member), (s.copies.find? fun x => x.id == c.id) = some c →
    s.member? c.member = some m →
    let made : Prop := (c.arrive = false ∧ c.arrived = false) ∨ (c.arrived = true ∧ ∀ a ∈ s.arrivals, a.cmd ≠ c.id)
    let plain (l : List Copy) : List Copy := l.map fun x => { x with clk := [] }
    let leaves (s' : State) : Prop := plain s'.copies = plain (s.copies.filter fun x => x.id != c.id) ∧
      s'.mem = s.mem ∧ s'.threads.length = s.threads.length
    let waits (s' : State) : Prop := s'.copies.map (fun x => (x.id, x.arrived)) =
      s.copies.map (fun x => (x.id, x.arrived || x.id == c.id)) ∧ s'.mem = s.mem ∧ s'.decs = s.decs
    let ends (e : Instr) (x : Input) : Prop := s.input = x → exec e s = .next (s.completeCopy c)
    (∀ s1, s.input = .id c.id → c.started = false → c.ring = none → s.startsNext c = true →
      s.allDone c.after = true → s.settled c.clk = true → s.startCopy c = .ok s1 → exec .copyStart s = .next s1) ∧
    (c.started = true → c.fail = none → c.kind.path ≠ .n ∨ c.arrived = true → ends .copyComplete (.id c.id)) ∧
    (∀ peer data, c.kind = .put peer → c.started = true → c.fail = none → c.arrived = false →
      s.input = .remote c.id (some data) → exec .copyComplete s = .next ((s.chargeCopy c).completeCopy c)) ∧
    (∀ peer data, c.kind = .get peer → c.started = true → c.fail = none → c.arrived = false →
      s.input = .remote c.id (some data) →
      let rows := (List.range c.rows).map fun r => piecesOf true (c.dst + BitVec.ofNat 64 (r * c.dpitch)) c.rowbytes
      s.reach c.member rows 0 = .rows c.rows none →
      let done := { c with moved := [(clusterPos c.dst, c.rows * c.rowbytes)], rowsDone := c.rows }
      exec .copyComplete s =
        .next (((s.landGet c 0 rows (rowsOf c.rows c.rowbytes data)).chargeCopy done).completeCopy done)) ∧
    (made → leaves (s.completeCopy c) ∧ (s.completeCopy c).decs.map (fun d => (d.cmd, d.handle)) =
      s.decs.map (fun d => (d.cmd, d.handle)) ++
        (if c.done = true ∧ m.desc.done ≠ 0xFFFFFFFF then [(c.id, m.desc.done)] else []) ++
        (match c.joint with | none => [] | some h => [(c.id, h)])) ∧
    (c.arrive = true → c.arrived = false → waits (s.completeCopy c) ∧
      (∀ k out, c.kind = .acc k out → ∃ a ∈ (s.completeCopy c).arrivals, a.cmd = c.id ∧
        a.loc = ⟨m.id + 1, c.offset⟩ ∧ a.bytes = c.rows * c.rowbytes ∧ a.error = none) ∧
      (∀ o off, c.kind = .cpy → s.target m c.dst 1 = .ok (.scratch o off) →
        ∃ a ∈ (s.completeCopy c).arrivals, a.cmd = c.id ∧ a.loc = ⟨o.id + 1, c.offset⟩ ∧
          a.bytes = (assoc c.moved (clusterPos c.dst)).getD 0 ∧ a.error = none) ∧
      (∀ va, c.kind = .cpy → s.target m c.dst 1 = .ok (.shared va) →
        ∃ a ∈ (s.completeCopy c).arrivals, a.cmd = c.id ∧ a.loc = ⟨m.id + 1, c.offset⟩ ∧
          a.bytes = c.rows * c.rowbytes ∧ a.moved = 0 ∧ a.error = none)) ∧
    (c.arrive = true → c.arrived = true → (∃ a ∈ s.arrivals, a.cmd = c.id) → s.completeCopy c = s) ∧
    (∀ under pos addr, c.fail = some (under, pos, addr) → s.input = .id c.id →
      exec .copyFailureEnd s = .next (s.failCopy c under pos addr)) ∧
    (c.fail ≠ none → (∀ answer, s.input = .remote c.id answer →
      exec .copyComplete s = .next s ∧ exec .copyFailureEnd s = .next s)) ∧
    (∀ peer, c.started = true → c.fail = none → c.arrived = false → s.input = .remote c.id none →
      (c.kind = .get peer → exec .copyFailureEnd s = .next (s.failCopy c 0 0 c.src)) ∧
      (c.kind = .put peer → ∃ rows bytes : Nat, rows ≤ c.rowsDone ∧ bytes ≤ c.rowsDone * c.rowbytes + c.movedBytes ∧
        let done := { c with rowsDone := rows, moved := [(0, bytes)] }
        exec .copyFailureEnd s = .next (({ s with fresh := s.fresh + 2 }.chargeCopy done).failCopy done 0 0 c.dst))) ∧
    (∀ under pos addr, (made → leaves (s.failCopy c under pos addr) ∧
        (s.failCopy c under pos addr).decs = s.decs) ∧
      (c.arrive = true → c.arrived = false → waits (s.failCopy c under pos addr)))) ∧
  (∀ (s : State) (c : Copy) (m : Member), s.member? c.member = some m → s.scratchWf →
    let all : List Nat := List.range c.rows
    let still (l : Loc) : Prop := ∀ j < c.rowbytes, ((s.shadowOf (l.plus j)).read (agentC c.id) c.clk 0).2 = false
    (c.kind = .cpy ∨ (∃ mask, c.kind = .cpym mask) ∨ (∃ e, c.kind = .sched e) →
      (∀ r ∈ all, s.checkPieces c.member (piecesOf false (c.srcRow r) c.rowbytes) = .ok ∧
        ∀ d ∈ c.dests, s.checkPieces c.member (piecesOf true (c.dstRow d r) c.rowbytes) = .ok) →
      let rows := all.map fun r => (r, c.dests)
      let got := s.readRows c rows
      s.startCopy c = .ok ((got.1.writeRows c rows got.2).copyMoved { c with
        started := true, moved := movedTo c rows, rowsDone := c.rows, fail := none, discard := none }) ∧
      ∀ (src : Nat → Loc) (dst : Dest → Nat → Loc),
        (∀ r ∈ all, s.landsAt c.member false (c.srcRow r) c.rowbytes (src r) ∧ still (src r)) →
        (∀ d ∈ c.dests, ∀ r ∈ all, s.landsAt c.member true (c.dstRow d r) c.rowbytes (dst d r) ∧
          ∀ j < c.rowbytes, s.inSource c (c.dstRow d r + BitVec.ofNat 64 j) = false) →
        let s1 := got.1.writeRows c rows got.2
        s1.mem = s.mem ∧
        (∀ x, outside x c.rowbytes (c.dests.flatMap fun d => all.map (dst d)) → s1.bytesAt x 1 = s.bytesAt x 1) ∧
        ∀ d ∈ c.dests, ∀ r ∈ all, ∀ j < c.rowbytes,
          (∀ e ∈ c.dests, ∀ n ∈ all, e ≠ d ∨ n ≠ r → outside ((dst d r).plus j) c.rowbytes [dst e n]) →
          s1.bytesAt ((dst d r).plus j) 1 = s.bytesAt ((src r).plus j) 1) ∧
    (∀ k, c.rows = 64 → c.rowbytes = 256 → ∀ (row : Nat → Loc),
      (c.kind = .acc k true → (∀ r ∈ all, s.landsAt c.member true (c.dstRow ⟨0, c.dst⟩ r) 256 (row r)) →
        ∃ s1 : State, s.startCopy c = .ok s1 ∧ (∀ x, outside x 256 (all.map row) → s1.bytesAt x 1 = s.bytesAt x 1) ∧
          s1.mem = s.mem ∧ ∀ r ∈ all, ∀ j < 64, ∀ i < 4,
            (∀ n ∈ all, n ≠ r → outside ((row r).plus (4 * j + i)) 256 [row n]) →
            s1.bytesAt ((row r).plus (4 * j + i)) 1 =
              [(Map.get m.accs (k * 4096 + 64 * r + j)).extractLsb' (8 * i) 8]) ∧
      (c.kind = .acc k false → Map.wf m.accs = true →
        (∀ r ∈ all, s.landsAt c.member false (c.dstRow ⟨0, c.dst⟩ r) 256 (row r) ∧ still (row r)) →
        ∃ s1 : State, ∃ x : Member, s.startCopy c = .ok s1 ∧ s1.mem = s.mem ∧ s1.member? c.member = some x ∧
          (∀ l, s1.bytesAt l 1 = s.bytesAt l 1) ∧
          (∀ r ∈ all, ∀ j < 64, Map.get x.accs (k * 4096 + 64 * r + j) =
            leWord (s.bytesAt ((row r).plus (4 * j)) 4)) ∧
          ∀ n, n < k * 4096 ∨ k * 4096 + 4096 ≤ n → Map.get x.accs n = Map.get m.accs n)) ∧
    (∀ peer (src : Nat → Loc), c.kind = .put peer →
      (∀ r ∈ all, s.landsAt c.member false (c.srcRow r) c.rowbytes (src r) ∧ still (src r)) →
      ∃ s1 : State, s.startCopy c = .ok s1 ∧ (∀ l, s1.bytesAt l 1 = s.bytesAt l 1) ∧
        s1.nym.out = s.nym.out ++ all.flatMap fun r => putMsgs (s.partOf c.member) peer (c.rowbytes / 8192 + 1)
          (c.dst + BitVec.ofNat 64 (r * c.dpitch)) (s.bytesAt (src r) c.rowbytes)) ∧
    (∀ peer (dst : Nat → Loc) (data : List Byte), c.kind = .get peer →
      (∀ r ∈ all, s.landsAt c.member true (c.dstRow ⟨0, c.dst⟩ r) c.rowbytes (dst r)) →
      let s1 := s.landGet c 0 (all.map fun r => piecesOf true (c.dstRow ⟨0, c.dst⟩ r) c.rowbytes)
        (rowsOf c.rows c.rowbytes data)
      (∀ x, outside x c.rowbytes (all.map dst) → s1.bytesAt x 1 = s.bytesAt x 1) ∧ s1.mem = s.mem ∧
      ∀ r ∈ all, ∀ j < c.rowbytes, (∀ n ∈ all, n ≠ r → outside ((dst r).plus j) c.rowbytes [dst n]) →
        s1.bytesAt ((dst r).plus j) 1 = [data.getD (r * c.rowbytes + j) 0])) ∧
  ((∀ (s : State) (t : Thread) (m : Member) (d a : Name), Issues s t (.stadv d a) → s.member? t.member = some m →
    let n := m.schedCtr + (s.name t a).toNat
    let c := if m.sched.length ≤ n then m.sched.length else n
    exec (.stadv d a) s = .next (((s.begin t (.stadv d a)).modMember m.id fun x =>
      { x with schedCtr := c }).result t d (BitVec.ofNat 32 c))) ∧
  (∀ (s : State) (m : Member) (e : SchedEntry) (k : Nat), s.input = .id m.id → s.member? m.id = some m →
    m.nextEntry = some (e, k) → m.entryMayStart e k = true →
    ∃ s' : State, ∃ c : Copy, exec .scheduleEntryStart s = .next s' ∧ s'.copies = s.copies ++ [c] ∧ c.kind = .sched k ∧
      c.member = m.id ∧ c.src = e.src ∧ c.rows = e.rows ∧ c.rowbytes = e.rowbytes ∧ c.started = false ∧
      ((s'.member? m.id).map fun x => x.sched.map (·.started)) =
        some (m.sched.zipIdx.map fun x => if x.2 = k then true else x.1.started) ∧ s'.mem = s.mem))

/-- R303, R304, R323: BINIT, BEXP and BARR update the 16 bytes of their barrier as one step, under the flip
rule, change no other byte, and complete. A BEXP that would carry the expected count past 2^32 - 1 traps
with cause 0x0D3 and leaves the barrier; what it finds there is what a read of the barrier finds, which a
race leaves free (R307).

R305, R324: BTEST writes whether the barrier's phase differs from bit 0 of its operand; BWAIT completes with
the status word once it does and else changes nothing, so that its thread waits. The status is the barrier's
where no write of its 16 bytes races with the look. Neither changes a byte. R214, R305, R323: a barrier
instruction traps with cause 0x087 where a byte of its barrier is lost to an uncorrectable error, and with
the cause of its address where that is no barrier's.

R304, R306: an arrival is applied at its barrier after the earlier ones of its command: its bytes and what
was moved are counted, an error sets the error bit and its cause, and the flip rule follows.

Where it rests on a choice of the model and not on a rule, the choice is log entries 11 and 98. -/
def Obligations.ArrivalBarriers : Prop :=
  (∀ (s : State) (t : Thread) (a b : Name) (l : Loc), s.scratchWf →
    let addr := s.addrPair t a
    let n := (s.name t b).toNat
    let old := s.barrierAt l
    let s1 := s.begin t (.bexp a b)
    let look := s1.lookBarrier t l
    (∀ r ∈ [(Instr.binit a b, (⟨n, 0, 0, 0⟩ : Barrier)),
      (.bexp a b, afterFlip (look.2.expected + n) look.2.arrived look.2.status look.2.progress),
      (.barr a b, afterFlip old.expected ((old.arrived + n) % 2 ^ 32) old.status old.progress)],
      Issues s t r.1 → ReachesBarrier (s.begin t r.1) t addr l →
      (r.1 = .bexp a b → look.2.expected + n < 2 ^ 32) →
      ∃ s' : State, ∃ t' : Thread, exec r.1 s = .next s' ∧ s'.barrierAt l = r.2 ∧ s.sameOutside s' l 16 ∧
        s'.thread? t.uid = some t' ∧ t'.pc = t.pc + 1 ∧ t'.wait = .none ∧ t'.regs = t.regs) ∧
    (Issues s t (.bexp a b) → ReachesBarrier s1 t addr l → 2 ^ 32 ≤ look.2.expected + n →
      exec (.bexp a b) s = .next ({ s1 with fresh := look.1.fresh }.trap t.uid 0x0D3 addr))) ∧
  ((∀ (s : State) (t : Thread) (l : Loc),
    let now := s.tick t.uid (agentT t.uid)
    (∀ i < 16, ((now.shadowOf (l.plus i)).read (agentT t.uid) (now.clkOf t.uid) 16).2 = false) →
      (s.lookBarrier t l).2 = s.barrierAt l) ∧
  (∀ (s : State) (t : Thread) (m : Member) (p : BitVec 3) (d a b : Name),
    ∀ i ∈ [(Instr.binit a b, true), (.bexp a b, true), (.barr a b, true), (.btest p a b, false),
      (.bwait d a b, false)], Issues s t i.1 →
      let s1 := s.begin t i.1
      let addr := s.addrPair t a
      s1.member? t.member = some m →
      (∀ c, s1.barrierLoc m addr = .error c → exec i.1 s = .next (s1.trap t.uid c addr)) ∧
      (∀ l, s1.barrierLoc m addr = .ok l → s1.homeOpen l = true →
        (i.2 = true → s1.settled (s1.nextClk t.uid) = true ∧ s1.allDone (t.fenced .t) = true) →
        s1.meetsError l 16 = true → exec i.1 s = .next (s1.trap t.uid 0x087 addr))) ∧
  ∀ (s : State) (t : Thread) (p : BitVec 3) (d a b : Name) (l : Loc),
    let addr := s.addrPair t a
    let parity := (s.name t b).getLsbD 0
    (Issues s t (.btest p a b) → ReachesBarrier (s.begin t (.btest p a b)) t addr l →
      let look := (s.begin t (.btest p a b)).lookBarrier t l
      ∃ s' : State, ∃ t' : Thread, exec (.btest p a b) s = .next s' ∧ s'.thread? t.uid = some t' ∧ t'.pc = t.pc + 1 ∧
        t'.preds = setPredBit t.preds p (look.2.status.getLsbD 31 != parity) ∧ t'.regs = t.regs ∧
        s'.mem = s.mem ∧ ∀ x, s'.bytesAt x 1 = s.bytesAt x 1) ∧
    (Issues s t (.bwait d a b) → ReachesBarrier (s.begin t (.bwait d a b)) t addr l →
      let s1 := s.begin t (.bwait d a b)
      let look := s1.lookBarrier t l
      (look.2.status.getLsbD 31 ≠ parity →
        exec (.bwait d a b) s = .next ((look.1.observeFlip t l).result t d look.2.status)) ∧
      (look.2.status.getLsbD 31 = parity → exec (.bwait d a b) s = .next s1))) ∧
  (∀ (s : State) (a : Arrival) (m : Member), s.input = .id a.id → (s.arrivals.find? fun x => x.id == a.id) = some a →
    (∀ x ∈ s.arrivals, x.cmd = a.cmd → x.loc = a.loc → a.id ≤ x.id) → s.homeOpen a.loc = true → s.scratchWf →
    a.loc.space = m.id + 1 → s.member? m.id = some m → m.isReleased = false →
    let old := s.barrierAt a.loc
    let status : Word := match a.error with
      | none => old.status
      | some c => (old.status &&& 0x80000000) ||| 0x40000000 ||| BitVec.ofNat 32 (c % 512)
    ∃ s' : State, exec .barrierArrival s = .next s' ∧ s'.arrivals = s.arrivals.filter (fun x => x.id != a.id) ∧
      s'.barrierAt a.loc = afterFlip old.expected ((old.arrived + a.bytes) % 2 ^ 32) status
        ((old.progress + a.moved) % 2 ^ 32) ∧ s.sameOutside s' a.loc 16)

/-- R142, R224, R386, R387: BI and CALLI branch through a table in a scratchpad, after the index check, to the
word its entry names, with the table's join label; MMOV and MSWP move words at once; MONITOR reads its word
and arms a monitor where the core has one; MWAITM answers 1 for a hit, 2 without a monitor, and else opens a
pause and answers 0. A word read at once is the bytes at its place where no write races with it, and a word
written at once changes its bytes alone.

Where it rests on a choice of the model and not on a rule, the choice is log entry 11. -/
def Obligations.DirectAccesses : Prop :=
  (∀ (s : State) (t : Thread) (m : Member) (a b : Name) (l0 l1 l2 : Loc),
    ∀ i ∈ [(Instr.bi a b, false), (.calli a b, true)], Issues s t i.1 →
      let s1 := s.begin t i.1
      let x := s.addrPair t a
      let n := s.name t b
      (x.toNat % 4 ≠ 0 → exec i.1 s = .next (s1.trap t.uid 0x122 x)) ∧
      (x.toNat % 4 = 0 → MayAccess s1 t m (.table x n i.2) → PassesLocal s1 m ⟨x, 4, false, false⟩ l0 →
        PassesLocal s1 m ⟨x + 4, 4, false, false⟩ l1 →
        let r0 := s1.readNow t.uid l0 4
        let r1 := r0.1.readNow t.uid l1 4
        (r1.2 ≤ n.toNat → exec i.1 s = .next (r1.1.trap t.uid 0x120 x)) ∧
        (n.toNat < r1.2 → PassesLocal r1.1 m ⟨x + 8 + 4 * n.setWidth 64, 4, false, false⟩ l2 →
          ∃ s' : State, ∃ t' : Thread, exec i.1 s = .next s' ∧ s'.thread? t.uid = some t' ∧ s'.mem = s.mem ∧
            t'.pc = BitVec.ofNat 32 (r1.1.readNow t.uid l2 4).2 ∧ t'.join = some (BitVec.ofNat 32 r0.2) ∧
            t'.runs = [] ∧ t'.wait = .none ∧
            t'.regs = if i.2 then Map.set t.regs (16 * t.wb + 31) (t.pc + 1) else t.regs))) ∧
  (∀ (s : State) (t : Thread) (m : Member) (a b : Name) (l0 l1 : Loc),
    let x := s.addrPair t a
    let y := s.addrPair t b
    (Issues s t (.mmovW a b) → MayAccess (s.begin t (.mmovW a b)) t m (.mmov x y) →
      PassesLocal (s.begin t (.mmovW a b)) m ⟨x, 4, true, false⟩ l0 →
      PassesLocal (s.begin t (.mmovW a b)) m ⟨y, 4, false, false⟩ l1 →
      let r := (s.begin t (.mmovW a b)).readNow t.uid l1 4
      exec (.mmovW a b) s = .next ((r.1.writeNow t.uid l0 (leBytes 4 r.2)).finish t.uid)) ∧
    (Issues s t (.mswpW a b) → MayAccess (s.begin t (.mswpW a b)) t m (.mswp x y) →
      PassesLocal (s.begin t (.mswpW a b)) m ⟨x, 4, true, false⟩ l0 →
      PassesLocal (s.begin t (.mswpW a b)) m ⟨y, 4, true, false⟩ l1 →
      let r := (s.begin t (.mswpW a b)).readNow t.uid l0 4
      let q := r.1.readNow t.uid l1 4
      exec (.mswpW a b) s = .next (((q.1.writeNow t.uid l0 (leBytes 4 q.2)).writeNow t.uid l1
        (leBytes 4 r.2)).finish t.uid))) ∧
  (∀ (s : State) (t : Thread) (m : Member) (d a : Name) (l : Loc),
    (Issues s t (.monitor d a) → MayAccess (s.begin t (.monitor d a)) t m (.monitor (s.addrPair t a) [s.slotOf t d]) →
      PassesLocal (s.begin t (.monitor d a)) m ⟨s.addrPair t a, 4, false, false⟩ l →
      let r := (s.begin t (.monitor d a)).readNow t.uid l 4
      exec (.monitor d a) s = .next ((
        if t.monitor.isSome ∨ r.1.armedOn t.core < (if t.core < 192 then 64 else 16) then
          r.1.modThread t.uid fun z => { z with monitor := some ⟨l, false⟩ }
        else r.1).result t d (BitVec.ofNat 32 r.2))) ∧
    (Issues s t (.mwaitm d a) →
      let s1 := s.begin t (.mwaitm d a)
      let n := (s.name t a).toNat
      exec (.mwaitm d a) s = .next (match t.monitor with
        | none => s1.result t d 2
        | some k =>
          if k.hit then (s1.modThread t.uid fun z => { z with monitor := none }).result t d 1
          else (s1.modThread t.uid fun z => { z with
            pause := some (s.clock + BitVec.ofNat 64 (if n = 0 then 1 else if 65535 < n then 65535 else n))
            hitCloses := true }).result t d 0))) ∧
  (∀ (s : State) (u : Nat) (l : Loc) (n : Nat),
    (∀ i < n, (s.shadowOf (l.plus i)).raced = false ∧ (s.shadowOf (l.plus i)).writes = []) →
    (s.readNow u l n).2 = leNat (s.bytesAt l n)) ∧
  (∀ (s : State) (u : Nat) (l : Loc) (bs : List Byte), s.scratchWf → Memory.wf s.mem = true →
    (l.space = 0 ∨ ∃ m, s.member? m.id = some m ∧ l.space = m.id + 1) →
    (s.writeNow u l bs).bytesAt l bs.length = bs ∧ s.sameOutside (s.writeNow u l bs) l bs.length)

/-- R226, R227: APTEST classifies an address; APCVT converts one, or answers all ones. -/
def Obligations.AddressWords : Prop :=
  ∀ (s : State) (t : Thread) (m : Member) (d a : Name), s.member? t.member = some m →
    let x := s.pair t a
    let loc : Bool := decide (0xFFFFFF8000000000 ≤ x.toNat ∧ x.toNat < 0xFFFFFF8001000000)
    let clu : Bool := decide (0xFFFFFF8100000000 ≤ x.toNat ∧ x.toNat < 0xFFFFFF8104000000)
    (Issues s t (.aptest d a) → exec (.aptest d a) s = .next ((s.begin t (.aptest d a)).result t d
      (BitVec.ofNat 32 ((if x.toNat < 2 ^ 51 then 3 else if loc then 1 else if clu then 2 else 0) +
        (match s.target m x 1 with
          | .error _ => 0
          | .ok (.shared _) => 2 ^ 8
          | .ok (.scratch o off) => 2 ^ 8 + if (o.regionAt off).isSome then 2 ^ 9 else 0) +
        if clu then (x.toNat - 0xFFFFFF8100000000) / 2 ^ 24 * 2 ^ 16 else 0)))) ∧
    (Issues s t (.apcvtOff d a) → exec (.apcvtOff d a) s = .next ((s.begin t (.apcvtOff d a)).resultPair t d
      (if x.toNat < 2 ^ 51 then x else if loc then x - 0xFFFFFF8000000000
        else if clu then x - 0xFFFFFF8100000000 else BitVec.allOnes 64))) ∧
    (Issues s t (.apcvtLoc d a) → exec (.apcvtLoc d a) s = .next ((s.begin t (.apcvtLoc d a)).resultPair t d
      (if x.toNat < 2 ^ 24 then 0xFFFFFF8000000000 + x else BitVec.allOnes 64))) ∧
    (Issues s t (.apcvtClu d a) → exec (.apcvtClu d a) s = .next ((s.begin t (.apcvtClu d a)).resultPair t d
      (if loc ∧ t.core < 192 then 0xFFFFFF8100000000 + BitVec.ofNat 64 (t.core % 4 * 2 ^ 24) +
        (x - 0xFFFFFF8000000000) else BitVec.allOnes 64)))

/-- R228, R229, R230, R231: MAPSET binds a region that meets its conditions, with every line Invalid, and traps
at the first that it does not meet: 0x088 for its config, offset and base, with the offset in `xaddr`, 0x088
for its range, with the base, 0x089 for a unit that is mapped, 0x08C for a seventeenth region; MAPFLUSH
writes a region's marked sectors back and MAPREL also unbinds it; a page that is not there parks the thread,
an uncorrectable error in a sector traps with cause 0x087 and a line that fails otherwise with cause 0x08A.
MAPFILL starts the fills of an extent's lines that are Invalid, once a fence of the thread lets them start,
and completes at once for none. Each traps where its region is not mapped.

R217: a fill whose global line translates replaces the scratchpad line with the line's bytes and the
accesses that waited for it are made again; one that is declined or meets poison leaves the line Invalid and
they trap with cause 0x08A. An access waits for a line from when it comes to it: one that has not is not
touched.

R225, R368: PRFM completes whatever its address, and does nothing at one that would fault; PRFM.m waits
while a fence holds path T accesses, for the fill that it starts is one. A prefetch of shared memory raises
its page's heat and is sampled.

Where it rests on a choice of the model and not on a rule, the choice is log entries 11, 55, 56, 92 and 105. -/
def Obligations.MapWordsAndFills : Prop :=
  ((∀ (s : State) (t : Thread) (m : Member) (d a b : Name), Issues s t (.mapset d a b) →
    s.member? t.member = some m →
    let g := s.pair t a
    let o := (s.name t b).toNat
    let c := s.name t d
    let n := c.toNat % 128
    1 ≤ n → c.toNat / 2 ^ 7 % 2 = 0 → c.toNat < 2 ^ 9 → o % 65536 = 0 → g.toNat % 65536 = 0 →
    o + n * 65536 ≤ m.desc.scratch * 65536 → g.toNat + n * 65536 ≤ 2 ^ 51 →
    inRanges (s.rangesOf m.part) g.toNat (n * 65536) = true →
    (∀ r ∈ m.regions, r.off + r.units * 65536 ≤ o ∨ o + n * 65536 ≤ r.off) → m.regions.length < 16 →
    (s.inbound m o (n * 65536) = true → exec (.mapset d a b) s = .next (s.begin t (.mapset d a b))) ∧
    (s.inbound m o (n * 65536) = false →
    exec (.mapset d a b) s = .next (((s.begin t (.mapset d a b)).modMember m.id fun x =>
      { x with regions := insertBy (·.off) ⟨o, n, g, c.getLsbD 8, [], [], []⟩ x.regions }).finish t.uid))) ∧
  (∀ (s : State) (t : Thread) (m : Member) (d a b : Name), Issues s t (.mapset d a b) →
    s.member? t.member = some m →
    let g := s.pair t a
    let o := (s.name t b).toNat
    let c := s.name t d
    let n := c.toNat % 128
    ∀ cause addr, firstFailed [
      (decide (c.toNat / 2 ^ 7 % 2 ≠ 0 ∨ 2 ^ 9 ≤ c.toNat ∨ n = 0 ∨ o % 65536 ≠ 0 ∨ g.toNat % 65536 ≠ 0 ∨
        m.desc.scratch * 65536 < o + n * 65536), 0x088, BitVec.ofNat 64 o),
      (decide (2 ^ 51 < g.toNat + n * 65536) || !inRanges (s.rangesOf m.part) g.toNat (n * 65536), 0x088, g),
      (m.regions.any fun r => decide (r.off < o + n * 65536 ∧ o < r.off + r.units * 65536), 0x089, BitVec.ofNat 64 o),
      (decide (16 ≤ m.regions.length), 0x08C, 0)] = some (cause, addr) →
    exec (.mapset d a b) s = .next ((s.begin t (.mapset d a b)).trap t.uid cause addr)) ∧
  (∀ (s : State) (t : Thread) (m : Member) (a : Name), ∀ i ∈ [(Instr.maprel a, true), (.mapflush a, false)],
    Issues s t i.1 →
    let s1 := s.begin t i.1
    let o := (s.name t a).toNat
    s1.member? t.member = some m → m.st = .running → m.divert = none →
    ((∀ r ∈ m.regions, r.off ≠ o) → exec i.1 s = .next (s1.trap t.uid 0x08B (BitVec.ofNat 64 o))) ∧
    (∀ r s2 e, (m.regions.find? fun r => r.off == o) = some r → s1.settled (s1.nextClk t.uid) = true →
      s1.allDone (t.fenced .t) = true →
      (i.2 = true → s1.inbound m o (r.units * 65536) = false) →
      (s1.tick t.uid (agentT t.uid)).writeBack (agentT t.uid) ((s1.tick t.uid (agentT t.uid)).clkOf t.uid)
        t.core t.tid false m r r.marked = (s2, e) →
      exec i.1 s = .next (match e with
        | none => (if i.2 then s2.modMember m.id fun x =>
            { x with regions := x.regions.filter fun y => y.off != o } else s2).finish t.uid
        | some (.page _ page) => { s2.modThread t.uid fun x => { x with wait := .parked (.flush o i.2) page } with
            faults := if s2.faults.contains (m.part, page) then s2.faults else s2.faults ++ [(m.part, page)] }
        | some (.error _ x) => s2.trap t.uid 0x087 x
        | some (.line k) => s2.trap t.uid 0x08A (r.lineAddr k)))) ∧
  (∀ (s : State) (t : Thread) (m : Member) (a b : Name), Issues s t (.mapfill a b) →
    let s1 := s.begin t (.mapfill a b)
    let o := (s.name t a).toNat
    let n := (s.name t b).toNat
    s.member? t.member = some m →
    (n = 0 → exec (.mapfill a b) s = .next (s1.finish t.uid)) ∧
    (n ≠ 0 → (∀ r ∈ m.regions, o < r.off ∨ r.off + r.units * 65536 < o + n) →
      exec (.mapfill a b) s = .next (s1.trap t.uid 0x08B (BitVec.ofNat 64 o))) ∧
    (∀ r, n ≠ 0 → m.regionAt o = some r → o + n ≤ r.off + r.units * 65536 →
      let first := (o - r.off) / 4096
      (s1.allDone (t.fenced .t) = true → exec (.mapfill a b) s = .next ((s1.startFills t m.id r
        ((List.range ((o + n - 1 - r.off) / 4096 + 1 - first)).map fun i => first + i)).finish t.uid)) ∧
      (s1.allDone (t.fenced .t) = false → exec (.mapfill a b) s = .next s1)))) ∧
  ((∀ (s : State) (t : Thread) (op : MemOp) (o line : Nat), t.wait = .fill op o line →
    (∀ x y, t.waitsOnLine x y = true ↔ x = o ∧ y = line) ∧
    (s.input = .id t.uid → s.thread? t.uid = some t → exec .translationWalkEnd s = .next (s.attempt t op false))) ∧
  (∀ (t : Thread) (op : MemOp) (x y : Nat), t.wait = .walk op → t.waitsOnLine x y = false) ∧
  ∀ (s : State) (m : Member) (r : Region) (k member line : Nat) (f : Filler), s.input = .line member line →
    s.fillingLine member line = some (m, r, k, f) →
    let waiting := s.threads.filter (Thread.waitsOnLine member line)
    let at0 := r.off + k * 4096
    (∀ l leaf, s.checkFill m r k = .pass l leaf → s.fillReady r f = true →
      let filled := s.fillLine m r k f l leaf
      exec .mapFillComplete s = .next (filled.retry (filled.threads.filter (Thread.waitsOnLine member line))) ∧
      (s.scratchWf → s.member? m.id = some m →
        (r.away = [] → (s.fillLine m r k f l leaf).bytesAt ⟨m.id + 1, at0⟩ 4096 =
          (s.readFor f.agent (Clock.join r.clk f.clk) 0 l 4096).2) ∧
        ((∀ i < 4096, (s.shadowOf (l.plus i)).raced = false ∧ (s.shadowOf (l.plus i)).writes = []) →
          (s.fillLine m r k f l leaf).bytesAt ⟨m.id + 1, at0⟩ 4096 = s.bytesAt l 4096) ∧
        ∀ x : Loc, x.space ≠ 0 → x.space ≠ m.id + 1 ∨ x.off < at0 ∨ at0 + 4096 ≤ x.off →
          (s.fillLine m r k f l leaf).bytesAt x 1 = s.bytesAt x 1)) ∧
    ((∀ t ∈ waiting, s.trapHeld t.uid = false) → ∀ c x, s.checkFill m r k = .deny c x → exec .mapFillFail s =
      .next ((s.setLine member r.off k none).trapAll waiting 0x08A (r.lineAddr k))) ∧
    ((∀ t ∈ waiting, s.trapHeld t.uid = false) → ∀ page, s.checkFill m r k = .absent page → s.pageInRanges m.part page = false → exec .mapFillFail s =
      .next ((s.setLine member r.off k none).trapAll waiting 0x08A (r.lineAddr k)))) ∧
  ((∀ (s : State) (t : Thread) (h : BitVec 2) (b : Name) (o : BitVec 10), Issues s t (.prfm h b o) →
    let s1 := s.begin t (.prfm h b o)
    (h ≠ 2 ∨ s1.allDone (t.fenced .t) = true → exec (.prfm h b o) s =
      .next ((s1.prefetch t h (s.addrPair t b + o.signExtend 64 * 64)).finish t.uid)) ∧
    (h = 2 → s1.allDone (t.fenced .t) = false → exec (.prfm h b o) s = .next s1)) ∧
  (∀ (s : State) (t : Thread) (m : Member) (h : BitVec 2) (x : DWord), s.member? t.member = some m →
    ((∃ c, s.target m x 64 = .error c) → s.prefetch t h x = s) ∧
    (∀ o off k r, s.target m x 64 = .ok (.scratch o off) → s.check m ⟨x, 64, false, false⟩ = .fill o.id k r →
      s.prefetch t 2 x = s.startFillFor t o.id r k) ∧
    (∀ va l leaf, s.target m x 64 = .ok (.shared va) → s.check m ⟨x, 64, false, false⟩ = .pass l (some leaf) →
      s.prefetch t 2 x = s ∧ (h ≠ 2 → s.prefetch t h x = (s.raiseHeat leaf false).sample m.part
        ⟨t.core, t.tid, 3, 64, 0, m.id⟩ (BitVec.ofNat 64 va) l.off))))

/-- R368, R376: FENCE completes at once; the thread's later accesses of its second path wait for what it has
under way on the first, and no other path is held for more. FENCE.tt holds nothing, and completes once the
thread's path T writes are performed.

R382, R383, R384: TBARW completes when the generation it names has released, and else waits for it; its tag
at or above the declared tags traps with cause 0x142. An arrival whose count is 0, above 65,535 or not that
of its generation traps with cause 0x143 and the count in every thread of its crew, and is not counted; one
with a valid count is counted in the open generation, whose number its lanes receive or wait for; a full
generation releases 64 cycles after its last arrival, or 160 with arrivals from several dies, and its
waiters go on. -/
def Obligations.FencesAndTagBarriers : Prop :=
  (∀ (s : State) (t : Thread) (x y : BitVec 3), Issues s t (.fence x y) →
    (pathOf x = .t → pathOf y = .t →
      (∀ f ∈ s.flights, f.owner = t.uid → f.applied = false → f.op.writes = false) →
      exec (.fence x y) s = .next ((s.begin t (.fence x y)).modThread t.uid Thread.advance)) ∧
    (pathOf x = .t → pathOf y = .t → (∃ f ∈ s.flights, f.owner = t.uid ∧ f.applied = false ∧ f.op.writes = true) →
      exec (.fence x y) s = .next (s.begin t (.fence x y))) ∧
    (pathOf x ≠ .t ∨ pathOf y ≠ .t →
    ∃ s' : State, ∃ t' : Thread, exec (.fence x y) s = .next s' ∧ s'.thread? t.uid = some t' ∧ t'.pc = t.pc + 1 ∧ t'.wait = .none ∧
      t'.fenced (pathOf y) = t.fenced (pathOf y) ++ s.liveOf t (pathOf x) ∧
      (∀ p, p ≠ pathOf y → t'.fenced p = t.fenced p) ∧ t'.regs = t.regs ∧ t'.preds = t.preds ∧ s'.mem = s.mem ∧
      s'.flights = s.flights ∧ ∀ u, u ≠ t.uid → s'.thread? u = s.thread? u)) ∧
  ((∀ (s : State) (t : Thread) (m : Member) (tag : BitVec 3) (b : Name),
    ∀ i ∈ [(Instr.tbarw tag b, false), (.tbarwP tag b, true)], Issues s t i.1 → s.member? t.member = some m →
      tag.toNat < m.desc.tags →
      let s1 := s.begin t i.1
      let x := s.tagBarrier m.part m.job tag.toNat
      let gen := (s.name t b).toNat % 65536
      (∀ r, x.released = some r → (r + 65536 - gen) % 65536 < 32768 → exec i.1 s =
        .next ((s1.modThread t.uid fun u => u.learn (x.learnt gen i.2)).finish t.uid)) ∧
      ((∀ r, x.released = some r → 32768 ≤ (r + 65536 - gen) % 65536) → exec i.1 s =
        .next (s1.modThread t.uid fun u => { u with wait := .tag tag.toNat gen i.2 }))) ∧
  (∀ (s : State) (t : Thread) (m : Member) (tag : BitVec 3) (b : Name), s.member? t.member = some m →
    m.desc.tags ≤ tag.toNat → ∀ i ∈ [Instr.tbarw tag b, .tbarwP tag b], Issues s t i →
      exec i s = .next ((s.begin t i).trap t.uid 0x142 (tag.setWidth 64))) ∧
  (∀ (s : State) (a : TagArrival), s.input = .id a.id → (s.tagArrivals.find? fun x => x.id == a.id) = some a →
    s.settled a.clk = true → (∀ u ∈ a.uids, s.trapHeld u = false) →
    let b := s.tagBarrier a.part a.job a.tag
    (∀ c, b.count = some c → b.arrived < c) → a.count = 0 ∨ 65535 < a.count ∨ (∃ c, b.count = some c ∧ c ≠ a.count) →
    ∃ s' : State, exec .tagBarrierArrival s = .next s' ∧ s'.tags = s.tags ∧
      s' = State.trapEach { s with tagArrivals := s.tagArrivals.filter fun x => x.id != a.id }
        (a.uids.filterMap s.thread?) 0x143 (BitVec.ofNat 64 a.count)) ∧
  (∀ (s : State) (a : TagArrival), s.input = .id a.id → (s.tagArrivals.find? fun x => x.id == a.id) = some a →
    s.settled a.clk = true → (∀ u ∈ a.uids, s.trapHeld u = false) →
    let b := s.tagBarrier a.part a.job a.tag
    (∀ c, b.count = some c → b.arrived < c ∧ c = a.count) → 1 ≤ a.count → a.count ≤ 65535 →
    ∃ s' : State, exec .tagBarrierArrival s = .next s' ∧ s'.tagArrivals = s.tagArrivals.filter (fun x => x.id != a.id) ∧
      (let b' := s'.tagBarrier a.part a.job a.tag
       b'.num = b.num ∧ b'.count = some a.count ∧ b'.arrived = b.arrived + 1 ∧ b'.lastAt = s.clock) ∧ s'.mem = s.mem ∧
      ∀ t : Thread, a.uids = [t.uid] → s.thread? t.uid = some t →
        (a.waits = true → s'.thread? t.uid = some { t with wait := .tag a.tag b.num a.view }) ∧
        (∀ j, a.waits = false → a.dst = some [.reg j] → s'.thread? t.uid = some (Thread.advance { t with
          regs := Map.set t.regs j (BitVec.ofNat 32 b.num) }))) ∧
  (∀ (s : State) (part tag : Nat) (job : DWord) (c : Nat), s.input = .tag part job tag →
    let b := s.tagBarrier part job tag
    b.count = some c → c ≤ b.arrived →
    (s.clock.toNat < b.lastAt.toNat + (if b.dies.length ≤ 1 then 64 else 160) → exec .tagBarrierRelease s = .next s) ∧
    (b.lastAt.toNat + (if b.dies.length ≤ 1 then 64 else 160) ≤ s.clock.toNat →
      ∃ s' : State, exec .tagBarrierRelease s = .next s' ∧ s'.mem = s.mem ∧
        let b' := s'.tagBarrier part job tag
        b'.num = (b.num + 1) % 65536 ∧ b'.count = none ∧ b'.arrived = 0 ∧ b'.released = some b.num ∧
        ∀ t : Thread, s.threads.filter (s.waitsOnTag b') = [t] → s.thread? t.uid = some t →
          ∃ t' : Thread, s'.thread? t.uid = some t' ∧ t'.pc = t.pc + 1 ∧ t'.wait = .none ∧ t'.regs = t.regs)))

/-- R309, R310, R311, R326, R327, R329: RINGPUSH.claim and RINGPOP.take give the slot at their pointer and its
local offset, when it is ready and no lower thread of the group stands at the word; a take has what the
slot's producer did before it. RINGPUSH.fill and RINGPOP.free hand a Claimed or Held slot on once the
thread's accesses are performed, the lower threads first; an offset that names no slot in that state traps
with cause 0x0D6 and the offset. RINGQ answers about the ring. A ring number at or above the declared count
traps each of them with cause 0x0D5 and the ring. A ring that is not configured, or whose producer is copies
or infeed at RINGPUSH or whose consumer is outfeed at RINGPOP, traps with cause 0x0D6 and the ring; RINGQ
answers 0 for one that is not configured.

R309, R310: the slots of a ring as its operations move them: a claim takes the slot at the claim pointer and
the pointer goes on by one, and the slot is its holder's; a take does so at the take pointer; a slot
committed behind no Claimed one becomes Filled, and one released behind no Held one becomes Free; no other
slot that is neither Committed nor Released changes. -/
def Obligations.RingWordsAndSlots : Prop :=
  ((∀ (s : State) (t : Thread) (m : Member) (r : Ring) (d b : Name) (a : BitVec 4) (q : BitVec 2),
    s.member? t.member = some m → a.toNat < m.desc.rings → m.ring? a.toNat = some r →
    let off := s.name t b
    (Issues s t (.ringpushClaim d a) → r.copyProd = false → r.infeed = false →
      let s1 := s.begin t (.ringpushClaim d a)
      (r.slotState r.claim = .free → s1.lowerWaits t = false → exec (.ringpushClaim d a) s =
        .next ((s1.modRing m.id r.num (Ring.doClaim t.uid)).result t d (BitVec.ofNat 32 (r.base + r.claim * r.bytes)))) ∧
      (r.slotState r.claim ≠ .free ∨ s1.lowerWaits t = true → exec (.ringpushClaim d a) s = .next s1)) ∧
    (Issues s t (.ringpopTake d a) → r.outfeed = false →
      let s1 := s.begin t (.ringpopTake d a)
      (r.slotState r.take = .filled → s1.lowerWaits t = false → exec (.ringpopTake d a) s =
        .next (((s1.modRing m.id r.num (Ring.doTake t.uid)).modThread t.uid fun x =>
          x.learn (r.slotClock r.take)).result t d (BitVec.ofNat 32 (r.base + r.take * r.bytes)))) ∧
      (r.slotState r.take ≠ .filled ∨ s1.lowerWaits t = true → exec (.ringpopTake d a) s = .next s1)) ∧
    (Issues s t (.ringpushFill a b) → r.copyProd = false → r.infeed = false →
      let s1 := s.begin t (.ringpushFill a b)
      (s1.lowerWaits t = true → exec (.ringpushFill a b) s = .next s1) ∧
      (∀ k, s1.lowerWaits t = false → r.slotAt off .claimed = some k → s1.settled (s1.nextClk t.uid) = true →
        s1.allDone (t.fenced .t) = true → exec (.ringpushFill a b) s =
          .next ((s1.modRing m.id r.num fun x => x.move k .committed (s1.clkOf t.uid)).finish t.uid)) ∧
      (s1.lowerWaits t = false →
        (∀ k < r.slots.length, r.base + k * r.bytes = off.toNat → r.slotState k ≠ .claimed) →
        exec (.ringpushFill a b) s = .next (s1.trap t.uid 0x0D6 (off.setWidth 64)))) ∧
    (Issues s t (.ringpopFree a b) → r.outfeed = false →
      let s1 := s.begin t (.ringpopFree a b)
      (s1.lowerWaits t = true → exec (.ringpopFree a b) s = .next s1) ∧
      (∀ k, s1.lowerWaits t = false → r.slotAt off .held = some k → s1.settled (s1.nextClk t.uid) = true →
        s1.allDone (t.fenced .t) = true → s1.slotBusy t m off.toNat r.bytes = false → exec (.ringpopFree a b) s =
          .next ((s1.modRing m.id r.num fun x => x.move k .released (s1.releaseClock t)).finish t.uid)) ∧
      (s1.lowerWaits t = false →
        (∀ k < r.slots.length, r.base + k * r.bytes = off.toNat → r.slotState k ≠ .held) →
        exec (.ringpopFree a b) s = .next (s1.trap t.uid 0x0D6 (off.setWidth 64)))) ∧
    (∀ i ∈ [(Instr.ringpushClaim d a, r.copyProd = true ∨ r.infeed = true),
        (.ringpushFill a b, r.copyProd = true ∨ r.infeed = true), (.ringpopTake d a, r.outfeed = true),
        (.ringpopFree a b, r.outfeed = true)], Issues s t i.1 → i.2 →
      exec i.1 s = .next ((s.begin t i.1).trap t.uid 0x0D6 (a.setWidth 64))) ∧
    (Issues s t (.ringq d a q) → exec (.ringq d a q) s = .next ((s.begin t (.ringq d a q)).result t d
      (if q = 0 then BitVec.ofNat 32 ((r.slots.countP fun x => x.1 == .free) +
          2 ^ 8 * (r.slots.countP fun x => x.1 == .claimed || x.1 == .committed) +
          2 ^ 16 * (r.slots.countP fun x => x.1 == .filled) +
          2 ^ 24 * (r.slots.countP fun x => x.1 == .held || x.1 == .released))
       else if q = 1 then r.config
       else if q = 2 then BitVec.ofNat 32 (((s.subOf m.id a.toNat).map fun x => x.count - x.next).getD 0)
       else BitVec.ofNat 32 r.base)))) ∧
  (∀ (s : State) (t : Thread) (m : Member) (d b : Name) (a : BitVec 4) (q : BitVec 2), s.member? t.member = some m →
    (m.desc.rings ≤ a.toNat → ∀ i ∈ [Instr.ringpushClaim d a, .ringpushFill a b, .ringpopTake d a, .ringpopFree a b,
      .ringq d a q], Issues s t i → exec i s = .next ((s.begin t i).trap t.uid 0x0D5 (a.setWidth 64))) ∧
    (a.toNat < m.desc.rings → m.ring? a.toNat = none →
      (∀ i ∈ [Instr.ringpushClaim d a, .ringpushFill a b, .ringpopTake d a, .ringpopFree a b], Issues s t i →
        exec i s = .next ((s.begin t i).trap t.uid 0x0D6 (a.setWidth 64))) ∧
      (Issues s t (.ringq d a q) → exec (.ringq d a q) s = .next ((s.begin t (.ringq d a q)).result t d 0))))) ∧
  (∀ (r : Ring) (i u : Nat) (clk : Clock), i < r.slots.length →
    (r.claim < r.slots.length → (r.doClaim u).slotState r.claim = .claimed ∧ assoc (r.doClaim u).holders r.claim = some u ∧
      (r.doClaim u).claim = (r.claim + 1) % r.slots.length ∧ ∀ j, j ≠ r.claim → (r.doClaim u).slotState j = r.slotState j) ∧
    (r.take < r.slots.length → (r.doTake u).slotState r.take = .held ∧ assoc (r.doTake u).holders r.take = some u ∧
      (r.doTake u).take = (r.take + 1) % r.slots.length ∧ ∀ j, j ≠ r.take → (r.doTake u).slotState j = r.slotState j) ∧
    ((∀ j, j ≠ i → r.slotState j ≠ .claimed) → (r.move i .committed clk).slotState i = .filled) ∧
    ((∀ j, j ≠ i → r.slotState j ≠ .held) → (r.move i .released clk).slotState i = .free) ∧
    (∀ x j, j ≠ i → r.slotState j ≠ .committed → r.slotState j ≠ .released →
      (r.move i x clk).slotState j = r.slotState j))

/-- R312, R313, R315, R328: the three forms of RINGSUB. With a well-made block they configure the ring, every
slot Free, and a subscription with the feeding forms, and answer 0, or answer the status that stops them; a
configuration of zeros unconfigures the ring. A reserved bit or a bad block traps with cause 0x0D7.

R309, R312, R313, R328: what RINGSUB checks of its block, and the status it then gives: 1 for a ring with a
slot that is not Free or an active subscription, 3 for a tile that leaves the partition's ranges, 2 where
the serving unit has 16 subscriptions, else 0; it waits for the page of G.

R310, R314, R316: a subscription whose ring has a slot ready for it moves its next tile, when every check of
the tile passes: the slot's pointer goes on, and the subscription goes to its next tile or ends after its
last. One whose tile meets a failure moves the rows before it, leaves its slot Claimed or Held, ends, and
delivers cause 0x0DC with the failing address and a record of what it has moved in all its tiles.

R313, R314: which bytes a tile moves. Row i of tile t lies at G + step x t + pitch x i and in the slot at i
x tb; an infeed reads each row there and writes its bytes to the slot, an outfeed the other way. The pieces
of a row are read and written in their order: a piece whose check passes at a location gives the bytes that
stand there, where no race has left them free, and takes the bytes in their order, and nothing else changes
but the heat of its page's leaf.

Where it rests on a choice of the model and not on a rule, the choice is log entry 9. -/
def Obligations.RingConfigurationAndTiles : Prop :=
  (∀ (s : State) (t : Thread) (m : Member) (d a : Name), s.member? t.member = some m →
    ∀ i ∈ [(Instr.ringsub d a, RingForm.threads), (.ringsubIn d a, .infeed), (.ringsubOut d a, .outfeed)],
      Issues s t i.1 →
      let s1 := s.begin t i.1
      let w := s.name t a
      let base := s.name t (nameAt a 1)
      let b := s.tileBlock t a
      (cfgReservedOk w = false → exec i.1 s = .next (s1.trap t.uid 0x0D7 (w.setWidth 64))) ∧
      (cfgReservedOk w = true → m.desc.rings ≤ cfgRing w →
        exec i.1 s = .next (s1.trap t.uid 0x0D5 (BitVec.ofNat 64 (cfgRing w)))) ∧
      (cfgReservedOk w = true → cfgRing w < m.desc.rings → cfgClears w = true →
        exec i.1 s = .next ((s1.clearRing m.id (cfgRing w)).result t d 0)) ∧
      (cfgReservedOk w = true → cfgRing w < m.desc.rings → cfgClears w = false →
        (m.ringsubBad i.2 w base b = true → exec i.1 s = .next (s1.trap t.uid 0x0D7 (w.setWidth 64))) ∧
        (m.ringsubBad i.2 w base b = false →
          (s.ringsubStatus m i.2 w b = some 0 → ∃ s' : State, exec i.1 s = .next (s'.result t d 0) ∧ s'.mem = s.mem ∧
            ((s'.member? m.id).bind fun x => x.ring? (cfgRing w)) = some (newRing i.2 w base) ∧
            (i.2 = .threads → s'.subs = s.subs) ∧
            (i.2 ≠ .threads → ∃ x : Sub, s'.subs = s.subs ++ [x] ∧ x.member = m.id ∧ x.ring = cfgRing w ∧
              x.infeed = (i.2 == .infeed) ∧ x.block = b ∧ x.next = 0 ∧ x.uid = t.uid)) ∧
          (∀ k, k ≠ 0 → s.ringsubStatus m i.2 w b = some k →
            exec i.1 s = .next (s1.result t d (BitVec.ofNat 32 k)))))) ∧
  (∀ (s : State) (t : Thread) (m : Member) (form : RingForm) (w base : Word) (a : Name),
    let v (i : Nat) : Nat := (s.name t (nameAt a i)).toNat
    let tb := v 4
    let tr := v 5 % 65536
    let pitch := if v 5 / 65536 = 0 then tb else 64 * (v 5 / 65536)
    let g : DWord := pairWord (s.name t (nameAt a 2)) (s.name t (nameAt a 3))
    let b : TileBlock := ⟨g, tb, tr, pitch, 64 * v 6, v 7⟩
    let ring := w.toNat / 2 ^ 17 % 16
    let n := w.toNat % 64 + 1
    let bytes := 256 * (w.toNat / 64 % 256 + 1)
    let o := base.toNat
    let extent := (tr - 1) * pitch + tb
    s.tileBlock t a = b ∧
    (m.ringsubBad form w base b = true ↔ n = 1 ∨ o % 256 ≠ 0 ∨ m.desc.scratch * 65536 < o + n * bytes ∨
      (∃ r ∈ m.regions, r.off < o + n * bytes ∧ o < r.off + r.units * 65536) ∨
      (∃ r ∈ m.rings, r.num ≠ ring ∧ r.base < o + n * bytes ∧ o < r.base + r.slots.length * r.bytes) ∨
      (form ≠ .threads ∧ (tb = 0 ∨ 65536 < tb ∨ tr = 0 ∨ v 7 = 0 ∨ bytes < tr * tb ∨ g.toNat % 64 ≠ 0)) ∨
      (form = .infeed ∧ w.getLsbD 14 = true)) ∧
    let busy : Prop := (∃ r, m.ring? ring = some r ∧ ∃ x ∈ r.slots, x.1 ≠ .free) ∨
      ∃ x ∈ s.subs, x.member = m.id ∧ x.ring = ring
    let outside : Prop := ∃ k < v 7, inRanges (s.rangesOf m.part) (g.toNat + 64 * v 6 * k) extent = false
    let status := s.ringsubStatus m form w b
    (busy → status = some 1) ∧
    (¬busy → (form = .threads → status = some 0) ∧
      (form ≠ .threads → (outside → status = some 3) ∧
        (¬outside → (s.walk (s.rootOf m.part) g.toNat = none → status = none) ∧
          ∀ l, s.walk (s.rootOf m.part) g.toNat = some l → status =
            some (if 16 ≤ (s.subs.filter fun x => x.stack == stackOf l.pa).length then 2 else 0))))) ∧
  (∀ (s : State) (x : Sub) (m : Member) (r : Ring), s.input = .id x.id → (s.subs.find? fun y => y.id == x.id) = some x →
    s.member? x.member = some m → m.ring? x.ring = some r → s.allDone x.after = true → s.settled x.clk = true →
    (if x.infeed then r.slotState r.claim = .free else r.slotState r.take = .filled) →
    let e := if x.infeed then Instr.infeedTile else .outfeedTile
    let slot := if x.infeed then r.claim else r.take
    let off := r.base + slot * r.bytes
    let clk := Clock.raise x.clk (agentC x.id) (x.next + 1)
    let moved (n : Nat) : State := (s.modRing m.id r.num (if x.infeed then Ring.doClaim x.id else Ring.doTake x.id)).moveTile
      x ⟨agentC x.id, clk, x.member, m.core, .i⟩ off 0 n
    (∀ n, s.tileReach x m.part (x.rowPieces off) 0 = .rows n none →
      ∃ s' : State, exec e s = .next s' ∧ n = x.rows ∧ (∀ l, s'.bytesAt l 1 = (moved n).bytesAt l 1) ∧
        (x.next + 1 < x.count → (s'.subs.find? fun y => y.id == x.id).map (·.next) = some (x.next + 1)) ∧
        (x.count ≤ x.next + 1 → s'.subs = s.subs.filter fun y => y.id != x.id) ∧
        ((s'.member? m.id).bind fun y => y.ring? x.ring).map (fun y => if x.infeed then y.claim else y.take) =
          some ((slot + 1) % r.slots.length)) ∧
    (∀ n c addr, s.tileReach x m.part (x.rowPieces off) 0 = .rows n (some (c, addr)) →
      let all := x.next * x.rows + n
      ∃ s' s1 : State, exec e s = .next s' ∧ s1 = (moved n).endSub x (if x.infeed then clk else Clock.join clk (r.slotClock slot)) ∧
        s' = s1.deliver x.member x.crew x.uid
          ⟨0x0DC, addr, some ⟨0x0DC, c, 0xFFFFFFFF, addr, all, all * x.rowBytes, 0, 0⟩, false⟩ ∧
        s1.subs = s.subs.filter (fun y => y.id != x.id) ∧
        (slot < r.slots.length → ((s1.member? m.id).bind fun y => y.ring? x.ring).map (fun y => y.slotState slot) =
          some (if x.infeed then .claimed else .held)))) ∧
  ((∀ (x : Sub) (off i : Nat),
    let bytes (ps : List Piece) := ps.flatMap fun p => (List.range p.size).map fun j => p.addr + BitVec.ofNat 64 j
    bytes (x.globalRow i) = (List.range x.rowBytes).map (fun j =>
      x.base + BitVec.ofNat 64 (x.step * x.next + x.pitch * i + j)) ∧
    bytes (x.slotRow off i) = (List.range x.rowBytes).map (fun j =>
      localBase + BitVec.ofNat 64 (off + i * x.rowBytes + j)) ∧
    (∀ p ∈ x.globalRow i, p.write = !x.infeed) ∧ ∀ p ∈ x.slotRow off i, p.write = x.infeed) ∧
  (∀ (s : State) (x : Sub) (a : Actor) (off i n : Nat) (p : Piece) (rest : List Piece) (bs : List Byte),
    s.moveTile x a off i 0 = s ∧
    (let r := s.readPieces a (if x.infeed then x.globalRow i else x.slotRow off i)
    s.moveTile x a off i (n + 1) =
      (r.1.writePieces a (if x.infeed then x.slotRow off i else x.globalRow i) r.2).moveTile x a off (i + 1) n) ∧
    (let r := s.readPieces a [p]
    let q := r.1.readPieces a rest
    s.readPieces a (p :: rest) = (q.1, r.2 ++ q.2)) ∧
    s.writePieces a (p :: rest) bs = (s.writePieces a [p] bs).writePieces a rest (bs.drop p.size)) ∧
  (∀ (s : State) (a : Actor) (p : Piece) (m : Member) (l : Loc) (leaf : Option Nat), s.member? a.member = some m →
    s.viaOf m p.addr = none → (∀ y, s.part? m.part = some y → y.cfg.sampler = none) →
    s.checkPiece a.member p = .pass l leaf → Memory.wf s.mem = true → s.scratchWf →
    let apart (y : Loc) : Prop := ∀ e, leaf = some e → y.space ≠ 0 ∨ y.off < e ∨ e + 8 ≤ y.off
    let r := s.readPieces a [p]
    ((∀ i < p.size, apart (l.plus i) ∧ ((s.shadowOf (l.plus i)).read a.agent a.clk 0).2 = false) →
      r.2 = s.bytesAt l p.size) ∧
    (∀ y, apart y → r.1.bytesAt y 1 = s.bytesAt y 1) ∧
    ∀ bs : List Byte, bs.length = p.size →
      let w := s.writePieces a [p] bs
      (∀ i < p.size, w.bytesAt (l.plus i) 1 = [bs.getD i 0]) ∧
      ∀ y, apart y → outside y p.size [l] → w.bytesAt y 1 = s.bytesAt y 1))

/-- R389: SPAWN makes a crew of its width with one thread in each lane, all starting at its word with the
issuer's names 1 to 16, and answers the crew's id, or the first refusal that applies; a bad width traps with
cause 0x144.

R391, R392, R393, R390: JNEW makes a counter of the issuer's job on its die with the value asked for, or
answers all ones; JDEC, YCANCEL and YPUT send their request to the yard and their thread waits for the
reply. A value with bit 31 traps with cause 0x146; YPUT traps with 0x145 for a bad count, then 0x141 for a
gate and for a done handle that is not live, then where its args block fails R202, in no aperture before
misaligned.

Where it rests on a choice of the model and not on a rule, the choice is log entries 4 and 52. -/
def Obligations.WorkCreated : Prop :=
  ((∀ (s : State) (t : Thread) (d a b : Name), Issues s t (.spawn d a b) →
    let s1 := s.begin t (.spawn d a b)
    let c := s.name t b
    (¬(1 ≤ c.toNat ∧ c.toNat ≤ 64) →
      exec (.spawn d a b) s = .next (s1.trap t.uid 0x144 (c.setWidth 64))) ∧
    (∀ m, 1 ≤ c.toNat → c.toNat ≤ 64 → s1.caughtUp t = true → s1.member? t.member = some m →
      (s1.marked m.part m.job (dieOf m.core) = true → exec (.spawn d a b) s = .next (s1.result t d 2)) ∧
      (s1.marked m.part m.job (dieOf m.core) = false → s1.canMakeCrew m = false →
        exec (.spawn d a b) s = .next (s1.result t d 0)) ∧
      (s1.marked m.part m.job (dieOf m.core) = false → s1.canMakeCrew m = true → s1.poolFree m < c.toNat →
        exec (.spawn d a b) s = .next (s1.result t d 1)) ∧
      (s1.marked m.part m.job (dieOf m.core) = false → s1.canMakeCrew m = true → c.toNat ≤ s1.poolFree m →
        let n := s1.makeCrew { t with clk := s1.clkOf t.uid } (s.name t a) c.toNat
        exec (.spawn d a b) s = .next (n.1.result t d n.2.idWord)))) ∧
  (∀ (s : State) (t : Thread) (pc : Word) (w : Nat),
    let n := s.makeCrew t pc w
    ∃ new : List Thread, n.1.threads = s.threads ++ new ∧ new.length = w ∧ n.2.width = w ∧ n.2.core = t.core ∧
      n.2.member = t.member ∧ n.1.mem = s.mem ∧
      ∀ j (x : Thread), new[j]? = some x → x.lane = j ∧ x.crew = n.2.cid ∧ x.pc = pc ∧ x.core = t.core ∧
        x.member = t.member ∧ x.preds = 1 ∧ x.wb = 0 ∧ x.wait = .none ∧
        ∀ k : Nat, k < 128 → Map.get x.regs k = if 1 ≤ k ∧ k ≤ 16 then s.name t (BitVec.ofNat 7 k) else 0)) ∧
  (∀ (s : State) (t : Thread) (m : Member) (d a b : Name), s.member? t.member = some m →
    let sends (s' : State) (op : FlightOp) (dst : List Slot) : Prop := ∃ t' : Thread, ∃ f : Flight, s'.thread? t.uid = some t' ∧
      s'.flights = s.flights ++ [f] ∧ f.op = op ∧ f.dst = dst ∧ f.uids = [t.uid] ∧ f.applied = false ∧
      t'.wait = .reply f.id ∧ t'.pc = t.pc ∧ t'.regs = t.regs ∧ s'.mem = s.mem
    (Issues s t (.jnew d a) →
      ((s.name t a).getLsbD 31 = true → exec (.jnew d a) s =
        .next ((s.begin t (.jnew d a)).trap t.uid 0x146 ((s.name t a).setWidth 64))) ∧
      ((s.name t a).getLsbD 31 = false →
        (∃ i < 262144, ∀ c ∈ s.counters, c.sect = dieOf t.core → c.index ≠ i) →
        ∃ c g, exec (.jnew d a) s = .next ({ s.begin t (.jnew d a) with
            counters := s.counters ++ [c], counterGens := g }.result t d c.handle) ∧
          c.value = (s.name t a).toNat ∧ c.part = m.part ∧ c.sect = dieOf t.core ∧ c.job = some m.job ∧
          c.gated = [] ∧ ∀ x ∈ s.counters, x.sect = c.sect → x.index ≠ c.index) ∧
      ((s.name t a).getLsbD 31 = false →
        (∀ i < 262144, ∃ c ∈ s.counters, c.sect = dieOf t.core ∧ c.index = i) →
        exec (.jnew d a) s = .next ((s.begin t (.jnew d a)).result t d 0xFFFFFFFF))) ∧
    (Issues s t (.jdec d a b) →
      let s1 := s.begin t (.jdec d a b)
      ((s.name t b).getLsbD 31 = true →
        exec (.jdec d a b) s = .next (s1.trap t.uid 0x146 ((s.name t b).setWidth 64))) ∧
      ((s.name t b).getLsbD 31 = false → s1.caughtUp t = true →
        ∃ s' : State, exec (.jdec d a b) s = .next s' ∧
          sends s' (.jdec (s.name t a) (s.name t b).toNat) [s.slotOf t d])) ∧
    (Issues s t (.ycancel d a) →
      let job := if s.pair t a = 0 then m.job else s.pair t a
      ∃ s' : State, exec (.ycancel d a) s = .next s' ∧ sends s' (.ycancel job) [s.slotOf t d] ∧
        s'.cancels = s.cancels ++ [⟨m.part, job, none, some s.nextId, 0, [0, 1, 2, 3]⟩] ∧
        ∀ p, s.part? m.part = some p → ∃ p' : Partition, s'.part? m.part = some p' ∧ job ∈ p'.jobs) ∧
    (Issues s t (.yput d a b) →
      let s1 := s.begin t (.yput d a b)
      let gate := s.name t b
      let done := s.name t (nameAt b 1)
      let off := s.name t (nameAt b 2)
      let count := (s.name t (nameAt b 3)).toNat
      let live (h : Word) : Prop := h = 0xFFFFFFFF ∨ ∃ c ∈ s.counters, c.part = m.part ∧ c.handle = h
      (count = 0 ∨ 256 < count → exec (.yput d a b) s =
        .next (s1.trap t.uid 0x145 ((s.name t (nameAt b 3)).setWidth 64))) ∧
      (1 ≤ count → count ≤ 256 → ¬live gate →
        exec (.yput d a b) s = .next (s1.trap t.uid 0x141 (gate.setWidth 64))) ∧
      (1 ≤ count → count ≤ 256 → live gate → ¬live done →
        exec (.yput d a b) s = .next (s1.trap t.uid 0x141 (done.setWidth 64))) ∧
      (1 ≤ count → count ≤ 256 → live gate → live done → off ≠ 0xFFFFFFFF →
        let o := off.toNat
        (2 ^ 24 ≤ o → exec (.yput d a b) s = .next (s1.trap t.uid 0x080 (0xFFFFFF8000000000 + off.setWidth 64))) ∧
        (o < 2 ^ 24 → o % 4 ≠ 0 →
          exec (.yput d a b) s = .next (s1.trap t.uid 0x081 (0xFFFFFF8000000000 + off.setWidth 64)))) ∧
      (1 ≤ count → count ≤ 256 → live gate → live done → s1.argsCheck m off = .ok →
        s1.caughtUp t = true → ∃ s' : State, ∃ args : Option (List Word), exec (.yput d a b) s = .next s' ∧
          sends s' (.yput (s.name t a).toNat gate done args count) (s.pairSlots t d) ∧
          (off = 0xFFFFFFFF → args = none) ∧
          (off ≠ 0xFFFFFFFF → args = some (s1.readArgs t (argsPieces off)).2 ∧
            ∀ ws, args = some ws → ws.length = 16))))

/-- R330, R342, R345, R402, R403, R404, R407, R408: a KV or dry-fit instruction whose checks pass sends its
request to the KV unit of its partition, and its thread waits for the reply with nothing changed yet in
registers or memory; it does not leave while a fence of the thread holds path T accesses.

R330, R342, R402, R404: which check of a KV or dry-fit instruction fails first, with its cause and `xaddr`,
its thread trapping: a partition without a KV pool 0x0E9; a bad word of a key block 0x0E8; a member that did
not declare windows 0x093; a bad operand of a dry-fit instruction 0x090, both with the offending word.
DFMARK then traps where R202 denies the first or the last chunk of its committed state, and with 0x090 for
an area over a mapped region, a ring or a barrier. -/
def Obligations.KvRequests : Prop :=
  (∀ (s : State) (t : Thread) (m : Member) (d a b : Name), s.member? t.member = some m →
    let key := kvKey (s.name t a) (s.name t (nameAt a 1)) (s.name t (nameAt a 2))
    let n3 := s.name t (nameAt a 3)
    let q := s.name t a
    let w := s.name t (nameAt a 1)
    let x := s.markArgs t a
    (∀ c : KvCfg, s.pool? m.part = some c →
      let seq := q.toNat < c.seqs
      let df := m.desc.flags.testBit 1 = true ∧ seq
      ∀ r ∈ [
        (Instr.kvlook d a, KvReq.look key, s.pairSlots t d, seq),
        (.kvalloc d a, .alloc key (n3.toNat % 256) (n3.getLsbD 8) (s.name t (nameAt a 4)).toNat, s.pairSlots t d,
          seq ∧ n3.toNat < 512 ∧ 1 ≤ n3.toNat % 256 ∧ n3.toNat % 256 ≤ (if n3.getLsbD 8 then 128 else 64)),
        (.kvfree d a, if s.name t (nameAt a 2) = 0xFFFFFFFF then .freeAll q.toNat else .free key, [s.slotOf t d], seq),
        (.kvshare d a b, .share q.toNat (s.name t b).toNat (s.name t (nameAt b 1)).toNat, [s.slotOf t d],
          seq ∧ (s.name t b).toNat < c.seqs),
        (.dfopen d a, .dfopen q.toNat w.toNat (s.name t (nameAt a 2)).toNat, [s.slotOf t d],
          df ∧ w ≠ 0 ∧ 1 ≤ (s.name t (nameAt a 2)).toNat ∧ (s.name t (nameAt a 2)).toNat ≤ 16),
        (.dfdrop d a, .dfdrop q.toNat w.toNat, [s.slotOf t d], df ∧ w ≠ 0),
        (.dfq d a, .dfq q.toNat, s.pairSlots t d, df),
        (.dfmark d a, .dfmark q.toNat w.toNat x.c x.off.toNat x.size.toNat, [s.slotOf t d],
          df ∧ w ≠ 0 ∧ x.bad c m = none ∧ s.markChunks m x = .ok ∧
            m.markBad x.off.toNat (16 * x.size.toNat) = false)],
        Issues s t r.1 → r.2.2.2 →
        (s.allDone (t.fenced .t) = false → exec r.1 s = .next (s.begin t r.1)) ∧
        (s.allDone (t.fenced .t) = true → ∃ s' : State, ∃ t' : Thread, ∃ f : Flight, exec r.1 s = .next s' ∧ s'.thread? t.uid = some t' ∧
          s'.flights = s.flights ++ [f] ∧ f.op = .kv r.2.1 ∧ f.dst = r.2.2.1 ∧ f.uids = [t.uid] ∧
          f.applied = false ∧ t'.wait = .reply f.id ∧ t'.pc = t.pc ∧ t'.regs = t.regs ∧ s'.mem = s.mem ∧
          s'.parts = s.parts))) ∧
  (∀ (s : State) (t : Thread) (m : Member) (d a b : Name), s.member? t.member = some m →
    let pool := s.pool? m.part
    let word (j : BitVec 7) : Word := s.name t (a + j)
    let noPool : Bool × Nat × DWord := (pool.isNone, 0x0E9, 0)
    let beyond (cause : Nat) (q : Word) : Bool × Nat × DWord :=
      (pool.any fun c => decide (c.seqs ≤ q.toNat), cause, q.setWidth 64)
    let n := word 3
    let tokens : Bool × Nat × DWord := (decide (512 ≤ n.toNat ∨ n.toNat % 256 = 0 ∨
      (if n.getLsbD 8 then 128 else 64) < n.toNat % 256), 0x0E8, n.setWidth 64)
    let declared : Bool × Nat × DWord := (!m.desc.flags.testBit 1, 0x093, 0)
    let window : Bool × Nat × DWord := (decide (word 1 = 0), 0x090, 0)
    let drafts : Bool × Nat × DWord := (decide ((word 2).toNat = 0 ∨ 16 < (word 2).toNat), 0x090, (word 2).setWidth 64)
    let addr := pairWord (word 2) (word 3)
    let off := (word 4).toNat
    let size := (word 5).toNat
    let region : List (Bool × Nat × DWord) := [
      (decide (size % 16 ≠ 0 ∨ size < 16 ∨ 65536 < size), 0x090, (word 5).setWidth 64),
      (decide (off % 16 ≠ 0 ∨ m.desc.scratch * 65536 < off + 16 * size), 0x090, (word 4).setWidth 64),
      (decide (addr.toNat % 16 ≠ 0 ∨ 2 ^ 51 ≤ addr.toNat), 0x090, addr)]
    let dryFit := [noPool, declared, beyond 0x090 (word 0)]
    let traps (i : Instr) (cause : Nat) (x : DWord) : Prop := exec i s = .next ((s.begin t i).trap t.uid cause x)
    (∀ i ∈ [(Instr.kvlook d a, [noPool, beyond 0x0E8 (word 0)]), (.kvalloc d a, [noPool, beyond 0x0E8 (word 0), tokens]),
      (.kvfree d a, [noPool, beyond 0x0E8 (word 0)]),
      (.kvshare d a b, [noPool, beyond 0x0E8 (word 0), beyond 0x0E8 (s.name t b)]),
      (.dfopen d a, dryFit ++ [window, drafts]), (.dfdrop d a, dryFit ++ [window]), (.dfq d a, dryFit),
      (.dfmark d a, dryFit ++ window :: region)],
      Issues s t i.1 → ∀ cause x, firstFailed i.2 = some (cause, x) → traps i.1 cause x) ∧
    (Issues s t (.dfmark d a) → firstFailed (dryFit ++ window :: region) = none →
      (∀ cause x, (s.begin t (.dfmark d a)).markChunks m (s.markArgs t a) = .fail cause x →
        traps (.dfmark d a) cause x) ∧
      ((s.begin t (.dfmark d a)).markChunks m (s.markArgs t a) = .ok →
        (∃ r ∈ m.regions, r.off < off + 16 * size ∧ off < r.off + r.units * 65536) ∨
        (∃ r ∈ m.rings, r.base < off + 16 * size ∧ off < r.base + r.slots.length * r.bytes) ∨
        (∃ x ∈ m.barriers, x < off + 16 * size ∧ off < x + 16) →
        traps (.dfmark d a) 0x090 ((word 4).setWidth 64))))

/-- R337, R345, R405: a request that may be applied is applied in one step: the unit's tables and the reply are
those that its kind gives, and nothing else of its partition changes, save that an entry that holds a byte
with an uncorrectable error is poisoned. A DFKEEP whose checks pass answers 0, keeps or drops what the
window holds and closes it; a poisoned sequence gives 2 and its window is dropped; a copy that meets such a
byte traps with cause 0x087 and leaves the windows and the entries as they are.

R341, R343, R344, R403: the statuses 5, 2 and 3 of a sequence that is not live, poisoned or another tenant's
come first; a page that is allocated was neither valid nor poisoned before; a freed sequence is not live; a
window opens only for a sequence without one, with a number above its last.

R338, R343, R344, R399, R400: a KVLOOK that finds its key answers the entry's page, flags and count, the
opener of a window with the provisional count; provisional entries are absent to others. A KVALLOC whose
checks pass raises the count of an existing entry, or under a window the provisional one, and outside a
window the sequence's length. A KVFREE of a block lowers its references, and the page is free at 0. A
KVSHARE sets the child's parent and prefix and raises the references of the committed pages below it.

R338, R405, R406, R407: a rise of the length frees, of the pages a sequence holds, those whose last position
the window's edge passes. A keep commits the provisional entries below the new length, their counts cut
there, frees the others, raises touched counts, and sets the length; a dropped window frees every
provisional entry and leaves the others and the length.

R339, R340, R341: PAGE_EVICT first sets an evictable page in transit and then seals it into the far pool and
invalidates its entry; PAGE_PROMOTE first allocates an entry in transit for a key that a request asks for,
and then restores the page from the far pool, or poisons the entry when its tag does not match or its page
holds an error; ENTRY_POISON poisons the entry with its page's lines.

Where it rests on a choice of the model and not on a rule, the choice is log entries 14, 22 and 60. -/
def Obligations.KvUnitSteps : Prop :=
  (∀ (s : State) (f : Flight) (r : KvReq) (m : Member) (p : Partition) (c : KvCfg), s.input = .id f.id →
    s.flight? f.id = some f → f.op = .kv r → s.member? f.member = some m → s.part? m.part = some p →
    p.cfg.kv = some c → f.applied = false → s.clear f = true →
    p.kv.waits c.pages m.id (s.tenantOf m) r = false →
    ((∀ q w k, r ≠ .dfkeep q w k) →
      let v := p.kv.step c.pages m.id (s.tenantOf m) r
      let outcome := match v.2 with
        | .words ws => (true, ws, f.trap)
        | .trap cause x => (true, f.reply, some (cause, x))
      ∃ s' u : State, exec .kvUnitStep s = .next s' ∧ s' = u.poisonBroken ∧ u.mem = s.mem ∧ u.threads = s.threads ∧
        u.broken = s.broken ∧ u.part? m.part = some { p with kv := v.1.published r (Clock.join f.clk []) } ∧
        (u.flight? f.id).map (fun g => (g.applied, g.reply, g.trap)) = some outcome ∧
        (s'.flight? f.id).map (fun g => (g.applied, g.reply, g.trap)) = some outcome ∧
        (s.broken = [] → s' = u)) ∧
    (∀ q w k x, r = .dfkeep q w k → p.kv.openedBy m.id q w = .ok x →
      let bad := (p.kv.seq q).poisoned
      let run := (s.tickFor f).1.promoteMarks f (s.tickFor f).2 m k x.marks
      (bad = true ∨ k = 0 ∨ (k ≤ x.nd ∧ { s with broken := [] }.checkPieces m.id x.targets.flatten = .ok ∧
          run.2 = none) → bad = true ∨ k ≤ x.nd →
        ∃ s' : State, exec .kvUnitStep s = .next s' ∧
          (s'.flight? f.id).map (fun g => (g.applied, g.reply)) = some (true, [statusWord (if bad then 2 else 0)]) ∧
          (bad = true ∨ k = 0 → s'.mem = s.mem ∧ s'.threads = s.threads) ∧
          ∀ p', s'.part? m.part = some p' →
            let kept := if bad = true ∨ k = 0 then p.kv.dropWindow x else p.kv.keep c.pages x k
            p'.kv.entries = kept.entries ∧ p'.kv.seqs = kept.seqs ∧ p'.kv.windows = kept.windows ∧
              ∀ y ∈ p'.kv.windows, y.seq ≠ q) ∧
      (∀ addr, bad = false → 0 < k → k ≤ x.nd → { s with broken := [] }.checkPieces m.id x.targets.flatten = .ok →
        run.2 = some addr → ∃ s' : State, ∃ p' : Partition, exec .kvUnitStep s = .next s' ∧
          (s'.flight? f.id).map (fun g => (g.applied, g.trap)) = some (true, some (0x087, addr)) ∧
          s'.part? m.part = some p' ∧ p'.kv.windows = p.kv.windows ∧ p'.kv.entries = p.kv.entries))) ∧
  (∀ (u : KvUnit) (pages member tenant : Nat) (k : KvKey),
    let st := if (u.seq k.seq).live = false then 5 else if (u.seq k.seq).poisoned then 2
      else if (u.seq k.seq).tenant = tenant then 0 else 3
    (st ≠ 0 → u.look pages member tenant k = .words [0xFFFFFFFF, BitVec.ofNat 32 (st * 2 ^ 24)]) ∧
    (∀ e v page, u.place pages e = some (v, page) →
      (∀ x ∈ u.entries, x.page = page → x.valid = false ∧ x.poisoned = false) ∧
      ∃ x ∈ v.entries, x.page = page ∧ x.key = e.key ∧ x.valid = e.valid ∧ x.count = e.count) ∧
    (∀ v, u.freeAll pages tenant k.seq = (v, .words [0]) → (v.seq k.seq).live = false) ∧
    (∀ v w nd, u.dfopen member tenant k.seq w nd = (v, .words [0]) →
      (u.seq k.seq).live = true ∧ (u.seq k.seq).tenant = tenant ∧ (∀ x ∈ u.windows, x.seq ≠ k.seq) ∧
      (u.seq k.seq).dfwin < w ∧ (v.seq k.seq).dfwin = w ∧
      ∃ x : Window, v.windows = u.windows ++ [x] ∧ x.seq = k.seq ∧ x.w = w ∧ x.member = member ∧ x.nd = nd ∧
        x.base = (u.seq k.seq).length ∧ x.marks = [] ∧ x.touched = [])) ∧
  (∀ (u : KvUnit) (pages member tenant : Nat) (k : KvKey) (e : KvEntry),
    let q := u.seq k.seq
    let top (n : Nat) : Nat := k.block * (if q.fp8 then 128 else 64) + n
    let info (e : KvEntry) (n : Nat) : KvReply := .words [BitVec.ofNat 32 e.page, BitVec.ofNat 32 (e.flags * 256 + n % 256)]
    (q.live = true → q.poisoned = false → q.tenant = tenant → ∀ key : KvKey, key = { k with seq := u.resolve 4 k.seq k.block } →
      (u.lookup pages key = none → u.look pages member tenant k = .words [0xFFFFFFFF, 0x01000000]) ∧
      (u.lookup pages key = some e →
        (∀ w, key = k → u.mine? k.seq member = some w → u.look pages member tenant k = info e (Nat.max e.count (w.touch k))) ∧
        (key ≠ k ∨ u.mine? k.seq member = none →
          u.look pages member tenant k = if e.provisional then .words [0xFFFFFFFF, 0x01000000] else info e e.count))) ∧
    (∀ n fp8 window,
      let st := if q.poisoned then 2 else if q.tenant ≠ tenant then 3
        else if (u.window? k.seq).any (fun w => w.member != member) then 9
        else if q.fp8 ≠ fp8 then 7 else if k.block < q.pfx then 6 else 0
      let r := u.alloc pages member tenant k n fp8 window
      (q.live = true → st ≠ 0 → r = (u, .words [0xFFFFFFFF, BitVec.ofNat 32 (st * 2 ^ 24)])) ∧
      (q.live = true → st = 0 → u.window? k.seq = none →
        (u.lookup pages k = some e →
          r.2 = info { e with count := Nat.max e.count n } (Nat.max e.count n) ∧
          (r.1.seq k.seq).length = Nat.max q.length (top n) ∧
          (q.window = 0 → (r.1.seq k.seq).pages = q.pages ∧ r.1.entries = u.entries.map fun x =>
            if x.page = e.page then { x with count := Nat.max x.count n } else x)) ∧
        (u.lookup pages k = none → ∀ v page, u.place pages (newEntry k q.tenant q.fp8 false n 0) = some (v, page) →
          (r.1.seq k.seq).length = Nat.max q.length (top n) ∧
          (q.window = 0 → (r.1.seq k.seq).pages = q.pages + 1 ∧ r.1.entries = v.entries)) ∧
        (u.lookup pages k = none → u.place pages (newEntry k q.tenant q.fp8 false n 0) = none →
          r = (u, .words [0xFFFFFFFF, 0x04000000]))) ∧
      (q.live = false → u.lookup pages k = none →
        (∀ v page, u.place pages (newEntry k tenant fp8 false n 0) = some (v, page) →
          let y := r.1.seq k.seq
          y.live = true ∧ y.poisoned = false ∧ y.tenant = tenant ∧ y.fp8 = fp8 ∧ y.window = window ∧ y.parent = none ∧
            y.pfx = 0 ∧ y.length = k.block * (if fp8 then 128 else 64) + n ∧
            (window = 0 → y.pages = 1 ∧ r.1.entries = v.entries)) ∧
        (u.place pages (newEntry k tenant fp8 false n 0) = none → r = (u, .words [0xFFFFFFFF, 0x04000000]))) ∧
      (∀ w, q.live = true → st = 0 → u.window? k.seq = some w →
        (r.1.seq k.seq).length = q.length ∧
        (w.base + w.nd < top n → r = (u, .trap 0x091 (BitVec.ofNat 64 (top n)))) ∧
        (top n ≤ w.base + w.nd →
          (u.lookup pages k = none → ∀ v page, u.place pages (newEntry k q.tenant q.fp8 true n w.w) = some (v, page) →
            r.1.entries = v.entries ∧ (r.1.seq k.seq).pages = q.pages + 1) ∧
          (u.lookup pages k = some e → e.provisional = true →
            r.2 = info { e with count := Nat.max e.count n } (Nat.max e.count n) ∧ r.1.entries = u.entries.map fun x =>
              if x.page = e.page then { x with count := Nat.max x.count n } else x) ∧
          (u.lookup pages k = some e → e.provisional = false → r.1.entries = u.entries ∧
            ((∃ t ∈ w.touched, t.1 = k) ∨ w.touched.length < 8192 →
              r.2 = info e (Nat.max e.count (Nat.max (w.touch k) n)) ∧
              ∃ w', r.1.window? k.seq = some w' ∧ w'.touch k = Nat.max (w.touch k) n ∧
                ∀ key, key ≠ k → w'.touch key = w.touch key) ∧
            ((∀ t ∈ w.touched, t.1 ≠ k) → 8192 ≤ w.touched.length → r = (u, .words [0xFFFFFFFF, 0x04000000])))))) ∧
    (
      let st := if q.live = false then 5 else if q.tenant ≠ tenant then 3 else if q.poisoned then 2
        else if k.block < q.pfx then 6 else 0
      let r := u.freeOne pages member tenant k
      (st ≠ 0 → r = (u, .words [BitVec.ofNat 32 (st * 2 ^ 24)])) ∧
      (st = 0 → u.lookup pages k = none → r = (u, .words [0x01000000])) ∧
      (st = 0 → u.lookup pages k = some e → e.provisional = true → u.mine? k.seq member = none →
        r = (u, .words [0x01000000])) ∧
      (st = 0 → u.lookup pages k = some e → e.provisional = false ∨ u.mine? k.seq member ≠ none →
        r.2 = .words [0] ∧ (r.1.seq k.seq).length = q.length ∧
        (r.1.seq k.seq).pages = q.pages - (if e.held then 1 else 0) ∧
        (e.refs ≤ 1 → ∀ x ∈ r.1.entries, x.page = e.page → x.valid = false) ∧
        (1 < e.refs → ∃ x ∈ r.1.entries, x.page = e.page ∧ x.valid = true ∧ x.key = k ∧ x.refs = e.refs - 1 ∧
          x.count = e.count ∧ x.held = false))) ∧
    (∀ child parent blocks,
      let c := u.seq child
      let p := u.seq parent
      let shares (key : KvKey) : Prop := key.block < blocks ∧ u.resolve 4 parent key.block = key.seq ∧
        ((∃ e ∈ u.entries, e.valid = true ∧ e.provisional = false ∧ e.key = key) ∨ ∃ f ∈ u.far, f.entry.key = key)
      let r := u.share tenant child parent blocks
      (c.live = false ∨ p.live = false → r = (u, .words [0x05000000])) ∧
      (c.live = true → p.live = true → c.poisoned = false → p.poisoned = false →
        (c.tenant ≠ tenant ∨ p.tenant ≠ tenant → r = (u, .words [0x03000000])) ∧
        (c.tenant = tenant → p.tenant = tenant →
          let held := c.parent.isSome = true ∨ ∃ key ∈ u.ownKeys child true, key.block < blocks
          let deep := child ∈ u.chain 5 (some parent) ∨ 4 < (u.chain 5 (some parent)).length
          (held → r = (u, .words [0x06000000])) ∧
          (¬held → deep → r = (u, .words [0x08000000])) ∧
          (¬held → ¬deep → r.2 = .words [0] ∧ (r.1.seq child).parent = some parent ∧ (r.1.seq child).pfx = blocks ∧
            (r.1.seq child).length = Nat.max c.length (blocks * (if c.fp8 then 128 else 64)) ∧
            (∀ key, key ∈ (r.1.seq child).shared ↔ shares key) ∧ r.1.entries.length = u.entries.length ∧
            (∀ x ∈ u.entries, x.valid = true → shares x.key → { x with refs := x.refs + 1 } ∈ r.1.entries) ∧
            (∀ x ∈ u.entries, ¬(x.valid = true ∧ shares x.key) → x ∈ r.1.entries)))))) ∧
  ((∀ (u : KvUnit) (pages q old new : Nat) (e : KvEntry),
    let s := u.seq q
    let last (b : Nat) : Nat := b * (if s.fp8 then 128 else 64) + (if s.fp8 then 128 else 64) - 1
    let passed (b : Nat) : Prop := old ≤ last b + s.window ∧ last b + s.window < new
    let v := u.slide pages q old new
    (s.window = 0 ∨ new ≤ old → v = u) ∧
    (s.window ≠ 0 → old < new →
      (u.lookup pages e.key = some e → e.page ∈ probes (homeIndex e.key pages) pages → e.refs ≤ 1 → passed e.key.block →
        (e.held = true ∧ e.key.seq = q ∧ e.provisional = false) ∨ e.key ∈ s.shared →
        ∀ x ∈ v.entries, x.page = e.page → x.valid = false) ∧
      (e ∈ u.entries → (∀ x ∈ u.entries, x.page = e.page → x = e) → ¬passed e.key.block →
        ∃ x ∈ v.entries, x.page = e.page ∧ x.key = e.key ∧ x.valid = e.valid ∧ x.refs = e.refs ∧ x.count = e.count ∧
          x.held = e.held) ∧
      (∀ key, key ∈ (v.seq q).shared ↔ key ∈ s.shared ∧ ¬passed key.block))) ∧
  (∀ (u : KvUnit) (w : Window) (e : KvEntry), e ∈ u.entries → e.valid = true → (∀ x ∈ u.entries, x.page = e.page → x = e) →
    let draft := e.provisional = true ∧ e.key.seq = w.seq ∧ e.window = w.w
    (
      let v := u.dropWindow w
      (draft → ∀ x ∈ v.entries, x.page = e.page → x.valid = false) ∧
      (¬draft → ∃ x ∈ v.entries, x.page = e.page ∧ x.key = e.key ∧ x.valid = true ∧ x.count = e.count ∧
        x.refs = e.refs ∧ x.provisional = e.provisional) ∧
      (v.seq w.seq).length = (u.seq w.seq).length ∧ ∀ x ∈ v.windows, x.seq ≠ w.seq) ∧
    (∀ pages k,
      let length := w.base + k
      let first := e.key.block * (if e.fp8 then 128 else 64)
      let v := u.keep pages w k
      (v.seq w.seq).length = Nat.max (u.seq w.seq).length length ∧ (∀ x ∈ v.windows, x.seq ≠ w.seq) ∧
      (draft → length ≤ first → ∀ x ∈ v.entries, x.page = e.page → x.valid = false) ∧
      ((u.seq w.seq).window = 0 →
        (draft → first < length → (∀ t ∈ w.touched, t.1 ≠ e.key) → ∃ x ∈ v.entries, x.page = e.page ∧ x.key = e.key ∧
          x.valid = true ∧ x.provisional = false ∧ x.window = 0 ∧ x.count = Nat.min e.count (length - first)) ∧
        (¬draft → (w.touched.map (·.1)).Nodup → ∃ x ∈ v.entries, x.page = e.page ∧ x.key = e.key ∧ x.valid = true ∧
          x.provisional = e.provisional ∧
          x.count = Nat.max e.count (if (w.touched.any fun t => t.1 = e.key) then Nat.min (w.touch e.key) (length - first)
            else 0)))))) ∧
  ((∀ (s : State) (part page : Nat) (p : Partition) (c : KvCfg) (e : KvEntry), s.input = .page part page →
    s.part? part = some p → p.cfg.kv = some c → p.kv.entry? page = some e →
    (e.transit = false → e.resident = true → e.refs ≠ 0 → e.provisional = false → e.poisoned = false →
      e.wcount < 0xFFFFFFFF → exec .pageEvict s = .next (s.modKv part fun u => u.modEntry page fun x =>
        { x with transit := true, wcount := x.wcount + 1 })) ∧
    (e.transit = true → e.resident = true → ∃ s' : State, ∃ p' : Partition, ∃ f : FarPage, exec .pageEvict s = .next s' ∧ s'.part? part = some p' ∧
      p'.kv.far = p.kv.far ++ [f] ∧ f.entry = e ∧ s'.mem = s.mem ∧
      f.plain = s.pageBytes part (pageAt c page) 32768 ++ s.pageBytes part (sideAt c page) 4096 ∧
      (f.image, f.tag) = Config.gcmSeal (p.tenantKey e.tenant) (sealIv part e) e.head16 f.plain ∧
      ∀ x ∈ p'.kv.entries, x.page = page → x.valid = false) ∧
    exec .entryPoison s = .next (s.poisonEntry part c e)) ∧
  (∀ (s : State) (part : Nat) (k : KvKey) (p : Partition) (c : KvCfg) (f : FarPage), s.input = .key part k →
    s.part? part = some p → p.cfg.kv = some c → p.kv.far? k = some f →
    (∀ v page, p.kv.lookup c.pages k = none → s.kvAsked part p.kv k = true →
      p.kv.place c.pages { f.entry with resident := false, transit := true } = some (v, page) →
      exec .pagePromote s = .next (s.modKv part fun _ => v)) ∧
    (∀ e, p.kv.lookup c.pages k = some e → e.resident = false → e.transit = true →
      ∃ s' : State, ∃ p' : Partition, exec .pagePromote s = .next s' ∧ s'.part? part = some p' ∧
        (∀ x ∈ p'.kv.far, x.entry.key ≠ k) ∧
        (Config.farIntact s.fresh = false →
          (∀ x ∈ p'.kv.entries, x.page = e.page → x.poisoned = true ∧ x.transit = false) ∧
          s'.mem = (s.withFrame part (pageAt c e.page)).mem) ∧
        (Config.farIntact s.fresh = true →
          (∀ x ∈ p'.kv.entries, x.page = e.page → x.resident = true ∧ x.transit = false) ∧
          let u : State := { s with fresh := s.fresh + 1 }.modKv part fun u =>
            ({ u with far := u.far.filter fun x => x.entry.key != k }).modSeq k.seq fun q =>
              { q with far := q.far - 1, pages := q.pages + if e.held then 1 else 0 }
          let w := (u.putPage part (pageAt c e.page) (slice f.plain 0 32768)).putPage part (sideAt c e.page)
            (slice f.plain 32768 4096)
          (w.broken = [] → s'.mem = w.mem) ∧
          s' = (w.modKv part fun u => u.modEntry e.page fun x => { x with resident := true, transit := false }).poisonBroken))))

/-- R347, R349, R350: with room in the sieve queue and every check passed, SKSET and SIEVE enter the queue of
their core with what the lowest lane's registers held at the issue, and complete.

R347, R349, R350, R351: the sieve command at the head of its queue executes and leaves the queue: SKSET
fills its query slot with the 32 bytes at its offset, SIEVE arrives at its barrier with its entries; one
that meets a memory failure arrives with the error and delivers cause 0x0EC. SVLIST lists the kept
sub-blocks at once; one that an access stops traps without having changed anything.

R331, R350: what a SIEVE does with each entry of its list: one whose page is not valid for it, by its
tenant, its poison or its block, has the bitmap byte 0 and is reported; else bit j of the byte says that a
token of sub-block j is kept, for its score reaches the threshold, or it is a sink token or a local one. The
byte alone changes. An access that fails ends the run with its cause there, and a page whose byte has not
been written is not reported.

Where it rests on a choice of the model and not on a rule, the choice is log entries 49, 50 and 109. -/
def Obligations.SieveCommands : Prop :=
  (∀ (s : State) (t l : Thread) (ts : List Thread) (m : Member) (c : KvCfg) (a : BitVec 2) (b : Name),
    l = ts.headD t → s.member? l.member = some m → s.pool? m.part = some c → (s.core t.core).sq.length < 8 →
    let off := (s.name l b).toNat
    let n := (s.name l (nameAt b 1)).toNat
    let map := (s.name l (nameAt b 3)).toNat
    let sl := s.name l (nameAt b 4)
    let bar := s.name l (nameAt b 6)
    let sb := m.desc.scratch * 65536
    ∀ r ∈ [(Instr.skset a b, SKind.skset a.toNat off, off % 32 = 0 ∧ off + 32 ≤ sb),
      (.sieve a b, .sieve a.toNat off n (s.name l (nameAt b 2)) map (sl.toNat / 65536) (sl.toNat % 65536)
        (s.name l (nameAt b 5)).toNat bar,
        1 ≤ n ∧ n ≤ 4096 ∧ off % 8 = 0 ∧ off + 8 * n ≤ sb ∧ map + n ≤ sb ∧ (barrierWord bar).1 = true)],
      IssuesJointly s t r.1 ts → r.2.2 →
      exec r.1 s = .next ((s.jointly t r.1 ts).queueSieve l ts r.2.1) ∧
      ∀ x : State, ∃ q : SCmd, ((x.queueSieve l ts r.2.1).core l.core).sq = (x.core l.core).sq ++ [q] ∧ q.kind = r.2.1 ∧
        q.id = x.nextId ∧ q.uids = ts.map (·.uid) ∧ q.member = l.member ∧ q.pc = l.pc) ∧
  ((∀ (s : State) (c : Core) (q : SCmd) (m : Member) (k : KvCfg), s.input = .id q.id →
    s.headSieve q.id = some (c, q, m) → s.core c.id = c → s.pool? m.part = some k →
    (∀ slot off, q.kind = .skset slot off → s.member? m.id = some m → Map.wf m.query = true →
      s.checkPieces m.id (localPieces false off 32) = .ok →
      let bs := (s.readPieces (sieveActor c q) (localPieces false off 32)).2
      bs.length = 32 → ∃ s' : State, exec .sksetExecute s = .next s' ∧ (s'.core c.id).unclocked.sq = { c with sq := c.sq.drop 1 }.unclocked.sq ∧ s'.arrivals = s.arrivals ∧
        ((s'.member? m.id).map fun x => (List.range 32).map fun i => Map.get x.query (32 * slot + i)) =
          some bs) ∧
    (∀ slot list n th map sink loc len bar, q.kind = .sieve slot list n th map sink loc len bar →
      (∀ s1 acc, s.runCmd c q m k = .done s1 acc none →
        exec .sieveExecute s = .next (((s1.endSieve c q acc).cmdArrival q.id q.crew m.id bar n acc.rows none
          (sieveActor c q).clk).reportBad q acc.bad)) ∧
      (∀ s1 acc cause x, s.runCmd c q m k = .done s1 acc (some (cause, x)) →
        exec .sieveCommandFailure s = .next ((((s1.endSieve c q acc).cmdArrival q.id q.crew m.id bar n acc.rows
          (some cause) (sieveActor c q).clk).reportBad q acc.bad).deliver q.member q.crew (q.uids.headD 0)
          ⟨0x0EC, x, some ⟨0x0EC, cause, q.pc, x, acc.rows, acc.rows, BitVec.ofNat 32 map, 0⟩, false⟩)))) ∧
  (∀ (s s1 : State) (t : Thread) (m : Member) (d b : Name), Issues s t (.svlist d b) →
    s1 = s.begin t (.svlist d b) → s1.member? t.member = some m → (s1.pool? m.part).isSome = true →
    svlistBad m (s.name t d) (s.name t b) (s.name t (nameAt b 1)) (s.name t (nameAt b 3)) = none →
    s1.settled (s1.nextClk t.uid) = true → s1.allDone (t.fenced .t) = true →
    let run := (s1.tick t.uid (agentT t.uid)).runList
      ⟨agentT t.uid, (s1.tick t.uid (agentT t.uid)).clkOf t.uid, m.id, t.core, .t⟩
      (s.name t b).toNat (s.name t (nameAt b 3)).toNat (s.name t d).toNat 0 (s.name t (nameAt b 1)).toNat 0
    (∀ s2 n, run = .done s2 n → exec (.svlist d b) s = .next (s2.result t d (BitVec.ofNat 32 n))) ∧
    (∀ cause x, run = .fail cause x → exec (.svlist d b) s = .next (s1.trap t.uid cause x))) ∧
  (∀ page bits : Nat, bits < 256 → listBytes page bits = ((List.range 8).filter fun j => bits / 2 ^ j % 2 = 1).flatMap
    fun j => leBytes 4 ((page * 8 + j) % 2 ^ 32))) ∧
  ((∀ (s : State) (a : Actor) (m : Member) (k : KvCfg) (x : SieveArgs) (q : List Int) (list bitmap n : Nat)
    (acc : SieveAcc),
    let entry := piecesOf false (localBase + BitVec.ofNat 64 (list + 8 * acc.rows)) 8
    let bit := piecesOf true (localBase + BitVec.ofNat 64 (bitmap + acc.rows)) 1
    let r := s.readPieces a entry
    let page := sliceNat r.2 0 4
    let block := sliceNat r.2 4 4
    s.checkPieces m.id entry = .ok →
    (r.1.sieveEntry m page block = none → r.1.checkPieces m.id bit = .ok →
      s.runSieve a m k x q list bitmap (n + 1) acc = (r.1.writePieces a bit [0]).runSieve a m k x q list bitmap n
        { acc with rows := acc.rows + 1, bad := acc.bad ++ [page] }) ∧
    (r.1.sieveEntry m page block = none → ∀ cause addr, r.1.checkPieces m.id bit = .fail cause addr →
      s.runSieve a m k x q list bitmap (n + 1) acc = .done r.1 acc (some (cause, addr))) ∧
    (∀ e, r.1.sieveEntry m page block = some e → e.transit = false →
      let side := piecesOf false (BitVec.ofNat 64 (sideAt k page)) (32 * e.count)
      let d := r.1.readPieces a side
      (∀ cause addr, r.1.checkPieces m.id side = .fail cause addr →
        s.runSieve a m k x q list bitmap (n + 1) acc = .done r.1 acc (some (cause, addr))) ∧
      (∀ cause addr, r.1.checkPieces m.id side = .ok → d.1.checkPieces m.id bit = .fail cause addr →
        s.runSieve a m k x q list bitmap (n + 1) acc =
          .done d.1 { acc with scored := acc.scored + e.count } (some (cause, addr))) ∧
      (r.1.checkPieces m.id side = .ok → d.1.checkPieces m.id bit = .ok →
      s.runSieve a m k x q list bitmap (n + 1) acc =
        (d.1.writePieces a bit [sieveByte x q (if e.fp8 then 128 else 64) block e.count d.2]).runSieve a m k x q list
          bitmap n { acc with rows := acc.rows + 1, scored := acc.scored + e.count }))) ∧
  (∀ (s : State) (m : Member) (page block : Nat) (e : KvEntry), s.sieveEntry m page block = some e ↔
    (∃ p, s.part? m.part = some p ∧ p.kv.entry? page = some e) ∧ e.tenant = s.tenantOf m ∧ e.poisoned = false ∧
      e.key.block = block) ∧
  (∀ (x : SieveArgs) (q : List Int) (tokens block count : Nat) (side : List Byte) (j : Nat),
    q.length = 64 → tokens = 64 ∨ tokens = 128 → j < 8 →
    let sketch (t y : Nat) : Int := ((side.getD (32 * t + y / 2) 0).extractLsb' (4 * (y % 2)) 4).toInt
    let score (t : Nat) : Int := ((List.range 64).map fun y => q.getD y 0 * sketch t y).sum
    (sieveByte x q tokens block count side).getLsbD j = true ↔ j < tokens / 16 ∧ ∃ t, 16 * j ≤ t ∧ t < 16 * j + 16 ∧
      t < count ∧ (x.threshold ≤ score t ∨ block * tokens + t < x.sink ∨
        (block * tokens + t < x.len ∧ (x.len : Int) - x.loc ≤ (block * tokens + t : Nat)))) ∧
  (∀ (m : Member) (slot : Nat), (m.queryOf slot).length = 64 ∧ ∀ y < 64, (m.queryOf slot).getD y 0 =
    ((Map.get m.query (32 * slot + y / 2)).extractLsb' (4 * (y % 2)) 4).toInt) ∧
  ∀ (s : State) (a : Actor) (m : Member) (off : Nat) (b : Byte) (l : Loc), s.scratchWf → s.member? m.id = some m →
    a.member = m.id → s.landsAt m.id true (localBase + BitVec.ofNat 64 off) 1 l →
    let t := s.writePieces a (piecesOf true (localBase + BitVec.ofNat 64 off) 1) [b]
    t.bytesAt l 1 = [b] ∧ s.sameOutside t l 1)

/-- R60, R61, R392: a decrement that arrives at its section lowers its counter in one step and lets the
counter's Gated members pass to Ready when the value comes to 0; one by more than the value changes nothing
and is an underflow: a copy's enters the section's log, a JDEC's traps with cause 0x140; a JDEC of a counter
that is not live traps with cause 0x141.

R50, R62, R63: a Gated member registers once: at a counter whose value is 0 it passes to Ready; else its
counter holds it. One without a counter passes to Ready.

Where it rests on a choice of the model and not on a rule, the choice is log entries 41 and 61. -/
def Obligations.CountersFire : Prop :=
  ((∀ (s : State) (d : Decrement), s.input = .id d.id → (s.decs.find? fun x => x.id == d.id) = some d →
    (∀ a ∈ s.arrivals, a.cmd ≠ d.cmd) → s.settled d.clk = true →
    ∃ s' : State, exec .jointDecrement s = .next s' ∧ s'.decs = s.decs.filter (fun x => x.id != d.id) ∧ s'.mem = s.mem ∧
      (∀ c, s.counter? d.part d.handle = some c → 1 ≤ c.value →
        (∀ x ∈ s'.counters, x.handle = d.handle → x.value = c.value - 1) ∧ s'.underflows = s.underflows ∧
        (c.value = 1 → ∀ m, s.member? m.id = some m → m.id ∈ c.gated → m.st = .gated →
          (s'.member? m.id).map (·.st) = some .ready)) ∧
      (∀ c, s.counter? d.part d.handle = some c → c.value = 0 → s'.members = s.members ∧
        ∃ u ∈ s'.underflows, u.handle = d.handle ∧ u.source = 2 ∧ u.job = d.job ∧ u.time = s.clock)) ∧
  (∀ (s : State) (f : Flight) (m : Member) (h : Word) (n : Nat), s.input = .id f.id → s.flight? f.id = some f →
    (∀ d ∈ s.decs, d.id ≠ f.id) → f.op = .jdec h n → s.member? f.member = some m → f.applied = false →
    s.clear f = true → ∃ s' : State, exec .jointDecrement s = .next s' ∧ s'.mem = s.mem ∧
      (s'.flight? f.id).map (fun g => (g.applied, g.reply, g.trap)) = some (match s.counter? m.part h with
        | none => (true, f.reply, some (0x141, h.setWidth 64))
        | some c =>
          if c.value < n then (true, f.reply, some (0x140, h.setWidth 64))
          else (true, [BitVec.ofNat 32 (c.value - n)], f.trap)) ∧
      (∀ c, s.counter? m.part h = some c → n ≤ c.value →
        ∀ x ∈ s'.counters, x.handle = h → x.value = c.value - n) ∧
      ((∀ c, s.counter? m.part h = some c → c.value < n) → s'.counters = s.counters))) ∧
  (∀ (s : State) (m : Member), s.input = .id m.id → s.member? m.id = some m → m.registered = false → m.st = .gated →
    ∃ s' : State, exec .memberRegister s = .next s' ∧ s'.mem = s.mem ∧
      (m.desc.gate = 0xFFFFFFFF → (s'.member? m.id).map (fun x => (x.registered, x.st)) = some (true, .ready)) ∧
      (∀ c, m.desc.gate ≠ 0xFFFFFFFF → s.counter? m.part m.desc.gate = some c →
        (c.value = 0 → (s'.member? m.id).map (fun x => (x.registered, x.st)) = some (true, .ready)) ∧
        (c.value ≠ 0 → (s'.member? m.id).map (fun x => (x.registered, x.st)) = some (true, .gated) ∧
          (s'.counter? m.part m.desc.gate).map (fun x => (x.value, x.gated)) = some (c.value, c.gated ++ [m.id]))))

/-- R56, R64, R390: a posting makes all its members as entries of sections with room, or none; YPUT_REQUEST
answers with the status, and on 0 with the first new member's id. ROOM_REPORT posts the launch that the
queues choose: one of a cancelled job, or with a handle that is not live, or with operands outside the
ranges, is refused. The members of a posting without a gate share one new counter at zero, which their job
holds.

R63, R79, R80, R81: a section that applies a cancel mark cancels the job's entries it holds and stops the
job's members on its cores; the cancel is answered once every section has applied it. A member that has
stopped for a cancel or its run limit ends with its threads; a Suspended one's regions are Released.

Where it rests on a choice of the model and not on a rule, the choice is log entries 39, 41, 52, 61, 62, 64,
84 and 101. -/
def Obligations.PostingsAndCancels : Prop :=
  ((∀ (s s' : State) (p : Posting), s.post p = some s' →
    ∃ new : List Member, s'.members.length = s.members.length + new.length ∧ new.length = p.desc.members ∧
      s'.members.drop s.members.length = new ∧ s'.mem = s.mem ∧ s'.threads = s.threads ∧
      (∀ m ∈ new, m.part = p.part ∧ m.job = p.job ∧ m.acct = p.acct ∧ m.prio = p.prio ∧
        { m.desc with gate := p.desc.gate } = p.desc ∧ m.version = p.version ∧ (m.st = .gated ∨ m.st = .cancelled) ∧
        m.sect < 4) ∧
      let held (l : List Counter) : List Counter := l.map fun c => { c with gated := [] }
      (p.desc.gate ≠ 0xFFFFFFFF → held s'.counters = held s.counters ∧ ∀ m ∈ new, m.desc = p.desc) ∧
      (p.desc.gate = 0xFFFFFFFF → ∀ d, s.sectionFor p.part p.desc p.own = some d →
        (∃ i < 262144, ∀ c ∈ s.counters, c.sect = d → c.index ≠ i) →
        ∃ c : Counter, held s'.counters = held s.counters ++ [c] ∧ c.value = 0 ∧ c.part = p.part ∧ c.sect = d ∧
          c.job = some p.job ∧ c.gated = [] ∧ (∀ x ∈ s.counters, x.sect = d → x.index ≠ c.index) ∧
          ∀ m ∈ new, m.desc.gate = c.handle)) ∧
  (∀ (s : State) (f : Flight) (m : Member) (c : Container) (v : Version) (template count : Nat) (gate done : Word)
    (args : Option (List Word)), s.input = .id f.id → s.flight? f.id = some f →
    f.op = .yput template gate done args count → s.member? f.member = some m → f.applied = false →
    s.clear f = true → s.container? m.container = some c → s.versionOf m = some v →
    let r := s.postYput m v c.cls (s.partMask m.part) template gate done args count f.clk
    (exec .yputRequest s = .next (r.1.modFlight f.id fun g => { g with
      applied := true
      reply := [BitVec.ofNat 32 r.2, if r.2 = 0 then BitVec.ofNat 32 (State.firstNew s r.1) else 0xFFFFFFFF] })) ∧
    (s.marked m.part m.job (dieOf m.core) = true → r = (s, 1)) ∧
    (s.marked m.part m.job (dieOf m.core) = false → v.templates.length ≤ template → r = (s, 3)) ∧
    (r.2 = 0 → r.1.members.length = s.members.length + count)) ∧
  (∀ (s : State) (part : Nat) (cls : CoreClass) (q : Queued), s.input = .pool part cls → s.nym.sill = .running →
    s.room part cls = true → s.chooseLaunch part cls 3 = some q →
    let refused (st : Nat) : Prop := exec .roomReport s = .next (s.refuseQueued q st)
    let live (h : Word) : Prop := h = 0xFFFFFFFF ∨ ∃ c ∈ s.counters, c.part = q.part ∧ c.handle = h
    (s.jobCancelled q.part q.h.job = true → refused 0x0A) ∧
    (s.jobCancelled q.part q.h.job = false → ¬(live q.desc.gate ∧ live q.desc.done) → refused 0x0B) ∧
    (s.jobCancelled q.part q.h.job = false → live q.desc.gate → live q.desc.done →
      q.desc.operandsIn (s.rangesOf q.part) = false → refused 0x05) ∧
    (s.jobCancelled q.part q.h.job = false → live q.desc.gate → live q.desc.done →
      q.desc.operandsIn (s.rangesOf q.part) = true → ∀ s1 l s2, s.readSchedule q.part q.desc = (s1, .entries l) →
      { s1 with queue := s1.queue.filter fun x => x.order != q.order }.post (q.posting l s1.nym.doneClk) = some s2 →
      exec .roomReport s = .next (s2.reply q.h 0 (.launched
        (State.firstNew { s1 with queue := s1.queue.filter fun x => x.order != q.order } s2) q.desc.members))))) ∧
  ((∀ (s : State) (part sect : Nat) (job : DWord) (c : CancelReq), s.input = .mark part job sect →
    (s.cancels.find? fun x => x.part == part && x.job == job && x.left.contains sect) = some c →
    ∃ s' : State, exec .cancelMark s = .next s' ∧ s'.marked part job sect = true ∧ s'.mem = s.mem ∧
      (∀ m, s.member? m.id = some m → m.part = part → m.job = job → m.sect = sect →
        (m.st = .gated ∨ m.st = .ready ∨ m.st = .parked → m.stop = .none ∨ m.stop.yields = true →
          (s'.member? m.id).map (fun x => (x.st, x.endCode)) = some (.cancelled, 1)) ∧
        (m.st = .running ∨ m.st = .suspended → m.stop = .none ∨ m.stop.yields = true →
          (s'.member? m.id).map (·.stop) = some .cancel)) ∧
      (∀ k, c.left = [sect] → c.flight = some k → ∀ g, s'.flight? k = some g → g.applied = true)) ∧
  (∀ (s : State) (m : Member), s.input = .id m.id → s.member? m.id = some m → m.stop = .cancel ∨ m.stop = .limit →
    m.st = .suspended ∨ (m.st = .running ∧ ∀ t ∈ s.threads, t.member = m.id → s.hasStopped t = true) →
    ∃ s' : State, exec .memberCancelStop s = .next s' ∧ s'.mem = s.mem ∧ (∀ t ∈ s'.threads, t.member ≠ m.id) ∧
      (∀ c ∈ s'.crews, c.member ≠ m.id) ∧
      (s'.member? m.id).map (fun x => (x.st, x.endCode, x.stop)) =
        some (.cancelled, if m.stop = .limit then 2 else 1, .none) ∧
      (m.st = .suspended → (s'.member? m.id).map (fun x => (x.divert, x.scratch, x.regions, x.deferred)) =
        some (m.divert.map (fun l => l.map fun d => (d.1, .released)), [], [], []))))

/-- R66, R71, R437: the next fitting entry of a section's pool gets its core. A Ready member's first crew has
one thread in each lane at the member's entry, arguments in v1 to v16, and the scratch image of its
function; a phase record's lanes have their carried names, predicates and window base at the record's word;
a Suspended member has its cells back and its first region is Restoring.

R438, R437: the Restoring region of a Running member becomes Direct and the next Diverting one Restoring;
when all are Direct the diversion is over.

Where it rests on a choice of the model and not on a rule, the choice is log entries 4, 30, 31, 33, 34, 63
and 76. -/
def Obligations.DispatchAndResume : Prop :=
  (∀ (s : State) (sect part core : Nat) (cls : CoreClass) (m : Member) (passed : List Member),
    s.input = .sect sect part cls → s.pick sect [] (s.pool sect part cls) = some (m, core, passed) →
    s.member? m.id = some m →
    (m.st = .ready → ∃ (s' : State) (c : Crew) (new : List Thread), exec .dispatch s = .next s' ∧ s'.mem = s.mem ∧
      (s'.member? m.id).map (fun x => (x.st, x.onCore, x.core, x.pinned, x.scratch, x.mask)) =
        some (.running, true, core, false, s.imageOf m, s.partMask m.part) ∧
      s'.crews.getLast? = some c ∧ s'.crews.length = s.crews.length + 1 ∧
      (c.core, c.member, c.width, c.bent, c.held) = (core, m.id, m.desc.width, none, true) ∧
      (m.desc.flags.testBit 0 = true → (s'.core core).cells = [] ∧ (s'.core core).owner = none) ∧
      s'.threads = s.threads ++ new ∧ new.length = m.desc.width ∧
      ∀ j (x : Thread), new[j]? = some x → x.lane = j ∧ x.crew = c.cid ∧ x.member = m.id ∧ x.core = core ∧
        x.pc = s.entryOf m ∧ x.preds = 1 ∧ x.wb = 0 ∧ x.wait = .none ∧
        ∀ k, Map.get x.regs k = if 1 ≤ k ∧ k ≤ 16 then m.desc.args.getD (k - 1) 0 else 0) ∧
    (∀ r : PhaseRec, m.st = .parked → m.phase = some r → ∃ (s' : State) (c : Crew) (new : List Thread),
      exec .redispatch s = .next s' ∧ s'.mem = s.mem ∧
      (s'.member? m.id).map (fun x => (x.st, x.onCore, x.core, x.phase)) = some (.running, true, core, none) ∧
      s'.crews.getLast? = some c ∧ c.width = r.width ∧ c.member = m.id ∧ s'.threads = s.threads ++ new ∧
      new.length = r.lanes.length ∧
      ∀ (j : Nat) (x : Thread) (p : PhaseLane), new[j]? = some x → r.lanes[j]? = some p → x.lane = p.lane ∧
        x.crew = c.cid ∧ x.core = core ∧ x.pc = r.pc ∧ x.preds = p.preds ∧ x.wb = p.wb ∧ x.regs = laneRegs p ∧
        x.wait = .none) ∧
    (∀ l, m.st = .suspended → m.divert = some l → l ≠ [] → ∃ s' : State, exec .resume s = .next s' ∧ s'.mem = s.mem ∧
      s'.threads.map (fun t => (t.uid, t.pc, t.regs, t.preds, t.wait)) =
        s.threads.map (fun t => (t.uid, t.pc, t.regs, t.preds, t.wait)) ∧
      (s'.member? m.id).map (fun x => (x.st, x.core, x.divert)) = some (.running, m.core, some (restoreNext l)) ∧
      (m.desc.flags.testBit 0 = true → (s'.core m.core).cells = m.savedCells)) ∧
    (m.st ≠ .ready → exec .dispatch s = .next s) ∧ (m.st ≠ .parked → exec .redispatch s = .next s) ∧
    (m.st ≠ .suspended → exec .resume s = .next s)) ∧
  (∀ (s : State) (m : Member) (l : List (Nat × Divert)), s.input = .id m.id → s.member? m.id = some m →
    m.divert = some l → m.st = .running → (∃ o, (o, Divert.restoring) ∈ l) →
    (directNext l).map (·.1) = l.map (·.1) ∧
    ∃ s' : State, exec .regionRestore s = .next s' ∧ s'.mem = s.mem ∧
      (s'.member? m.id).map (·.divert) =
        some (if (directNext l).all fun d => d.2 == .direct then none else some (directNext l)) ∧
      (s'.member? m.id).map (·.scratch) = some m.scratch)

/-- R74, R428, R429, R431: the yard pre-empts its victim for the first entry when that has waited 65,536 cycles
and fits no core; the victim comes first among the members that could yield. When its threads have stopped
the stop is noted, their pause windows close, and one that has evaluated a live prefix whose first word has
not issued stands before the prefix; then, when nothing of it is under way and it has no dirty lines, its
queued MST and DRAINQ read what they write, and it is Suspended with its cells saved and all its regions
Diverting. A member whose last thread has ended meanwhile is Done, and stays so (R63, R424).

R76: a Running member with a run limit that has run beyond it (in units of 2^20 cycles) is stopped for the
limit; one within it goes on.

Where it rests on a choice of the model and not on a rule, the choice is log entries 32, 35, 36 and 37. -/
def Obligations.PreemptionAndLimits : Prop :=
  ((∀ (s : State) (sect part : Nat) (cls : CoreClass) (x y : Member), s.input = .sect sect part cls →
    (s.pool sect part cls).head? = some x → (∃ t, x.firstSince = some t ∧ t.toNat + 65536 ≤ s.clock.toNat) →
    (∀ z ∈ s.members, z.stop.yields = true → z.part = part → z.desc.coreClass = cls → dieOf z.core ≠ sect) →
    s.choose x sect = none → s.victim (s.members.filter (s.couldYield x)) = some y →
    (s.atBoundary y = none → exec .preempt s =
      .next (s.modMember y.id fun m => { m with stop := .preempt, stopAt := s.clock })) ∧
    (∀ c ts, s.atBoundary y = some (c, ts) → exec .preempt s = .next (s.parkAt y c ts (s.boundaryOf y c ts))) ∧
    s.outranks x y = true ∧ y.st = .running ∧
    ∀ z ∈ s.members, s.couldYield x z = true → z.id ≠ y.id → s.victimBefore y z = true) ∧
  (∀ (s : State) (sect part : Nat) (cls : CoreClass) (x : Member), s.input = .sect sect part cls →
    (s.pool sect part cls).head? = some x → (∀ t, x.firstSince = some t → s.clock.toNat < t.toNat + 65536) →
    exec .preempt s = .next s) ∧
  (∀ (s : State) (m : Member), s.input = .id m.id → s.member? m.id = some m → m.st ≠ .running →
    exec .memberStop s = .next s) ∧
  (∀ (s : State) (m : Member), s.input = .id m.id → s.member? m.id = some m → m.st = .running → m.stop = .preempt →
    ((∀ t ∈ s.threads, t.member = m.id → s.hasStopped t = true) → exec .memberStop s = .next
      ({ s with threads := s.threads.map fun t : Thread => if t.member = m.id then { t.uncover with pause := none } else t }.modMember
        m.id fun x => { x with stop := .saving, stopAt := s.clock })) ∧
    (∀ t ∈ s.threads, t.member = m.id → s.hasStopped t = false → exec .memberStop s = .next s)) ∧
  (∀ (s : State) (m : Member), s.input = .id m.id → s.member? m.id = some m → m.st = .running → m.stop = .saving →
    s.drained m = false → exec .memberStop s = .next s) ∧
  (∀ (s : State) (m : Member), s.input = .id m.id → s.member? m.id = some m → m.st = .running → m.stop = .saving →
    s.drained m = true → (∀ r ∈ m.regions, r.marked = []) →
    ∃ s' : State, exec .memberStop s = .next s' ∧ s'.mem = s.mem ∧ s'.crews = s.crews ∧
      s'.threads.map (fun t => (t.uid, t.pc, t.regs, t.preds, t.wait, t.tid)) =
        s.threads.map (fun t => (t.uid, t.pc, t.regs, t.preds, t.wait, t.tid)) ∧
      (s'.member? m.id).map (fun x => (x.st, x.stop, x.onCore, x.divert, x.scratch, x.savedCells)) =
        some (.suspended, .none, m.onCore, some (m.regionStarts.map fun o => (o, .diverting)), m.scratch,
          if m.desc.flags.testBit 0 then ((s.captureAll m
            ((s.core m.core).mq.filter fun q => q.member == m.id)).core m.core).cells else []))) ∧
  (∀ (s : State) (m : Member), s.input = .id m.id → s.member? m.id = some m → m.st = .running →
    m.stop = .none ∨ m.stop.yields = true →
    (m.desc.runlimit ≠ 0 → m.desc.runlimit * 2 ^ 20 < m.used + (s.clock - m.runSince).toNat →
      exec .runLimit s = .next (s.modMember m.id fun x => { x with stop := .limit, stopAt := s.clock })) ∧
    (m.desc.runlimit = 0 ∨ m.used + (s.clock - m.runSince).toNat ≤ m.desc.runlimit * 2 ^ 20 →
      exec .runLimit s = .next s))

/-- R68, R69, R375, R384, R405: when what a crew has written is performed and its commands are complete, its
word goes on. At a boundary where the yard does not park the member all its threads pass the word; where it
parks, with no clean-up to do, its crew and threads are gone and its phase record holds the carried names,
predicates and window bases.

Where it rests on a choice of the model and not on a rule, the choice is log entry 37. -/
def Obligations.PhaseBoundaries : Prop :=
  ∀ (s : State) (c : Crew) (m : Member) (t : Thread) (rest : List Thread), s.input = .id c.cid →
    s.crew? c.cid = some c → s.member? c.member = some m →
    sortBy (·.lane) ((s.crewThreads c.cid).filter Thread.publishes) = t :: rest → m.goesOn = true →
    s.published c (t :: rest) = true →
    let clk := s.boundaryOf m c (t :: rest)
    (t.wait = .publish .boundary → s.wantsPark m c (t :: rest) = false →
      exec .phaseBoundary s = .next ((s.learnEach (t :: rest) clk).finishAll (t :: rest))) ∧
    (t.wait = .publish .boundary → s.wantsPark m c (t :: rest) = true →
      (∀ f ∈ s.flights, f.member ≠ m.id) → (∀ r ∈ m.regions, r.marked = []) →
      ∃ (s' : State) (r : PhaseRec), exec .phaseBoundary s = .next s' ∧ s'.mem = s.mem ∧
        (∀ x ∈ s'.threads, x.member ≠ m.id) ∧ (∀ x ∈ s'.crews, x.member ≠ m.id) ∧
        (s'.member? m.id).map (fun x => (x.st, x.onCore, x.phase, x.scratch, x.rings, x.regions)) =
          some (.parked, false, some r, [], [], []) ∧
        r.pc = t.pc + 1 ∧ r.width = c.width ∧ r.lanes = (t :: rest).map fun x => x.phaseLane m) ∧
    (∀ tag n d w, t.wait = .publish (.arrive tag n d w) → exec .phaseBoundary s =
      .next ((s.learnEach (t :: rest) clk).sendTag (t :: rest) m tag n (arriveSlots (t :: rest)) w true clk)) ∧
    (∀ q w k d, t.wait = .publish (.keep q w k d) → exec .phaseBoundary s =
      .next ((s.learnEach (t :: rest) clk).sendKeep (t :: rest) q w k (keepSlots (t :: rest))))

/-- R471, R472, R475: an ended member is quiesced when its commands are complete: its subscriptions, dry-fit
windows, matrix and sieve resources, rings, regions and crews go, without a write-back. Its release goes on
step by step, each after the one before has finished: the scratchpad units that nothing is on its way into,
the slots, then, when what it did is performed, its done counter if it is Done, then its completion message
of 48 bytes, and last its entry.

R471: a member that has not ended, or has something under way, is not quiesced; one that is not quiesced is
not released; its counter waits for what it did.

Where it rests on a choice of the model and not on a rule, the choice is log entries 42, 45 and 56. -/
def Obligations.Retirement : Prop :=
  ((∀ (s : State) (m : Member), s.input = .id m.id → s.member? m.id = some m → m.st = .done ∨ m.st = .cancelled →
    m.quiesced = false → s.quiescent m = true →
    ∃ s' : State, exec .memberQuiesced s = .next s' ∧ s'.mem = s.mem ∧ s'.nym = s.nym ∧ (∀ x ∈ s'.subs, x.member ≠ m.id) ∧
      (∀ c ∈ s'.crews, c.member ≠ m.id) ∧
      (∀ p, s'.part? m.part = some p → ∀ w ∈ p.kv.windows, w.member ≠ m.id) ∧
      (s'.member? m.id).map (fun x => (x.quiesced, x.st, x.scratch, x.tiles, x.accs)) =
        some (true, m.st, m.scratch, [], []) ∧
      (s'.member? m.id).map (fun x => (x.rings, x.regions, x.query)) = some ([], [], [])) ∧
  (∀ (s : State) (m : Member), s.input = .id m.id → s.member? m.id = some m → m.quiesced = true →
    (m.freed.length < m.desc.scratch → ∃ s' : State, exec .retireRelease s = .next s' ∧ s'.mem = s.mem ∧
      s'.nym.out = s.nym.out ∧ s'.counters = s.counters ∧
      (s'.member? m.id).map (fun x => (x.freed, x.retire)) = some (m.freed ++ s.idleUnits m, m.retire) ∧
      ∀ u, u ∈ s.idleUnits m ↔ u < m.desc.scratch ∧ u ∉ m.freed ∧ s.inbound m (u * 65536) 65536 = false ∧
        ∀ c ∈ s.copies, s.sendsTo m c = false) ∧
    (m.desc.scratch ≤ m.freed.length → m.retire ≠ 6 → m.retire ≠ 7 → m.retire ≠ 8 → ∃ s' : State,
      exec .retireRelease s = .next s' ∧ s'.mem = s.mem ∧ s'.nym.out = s.nym.out ∧ s'.counters = s.counters ∧
      (s'.member? m.id).map (fun x => (x.retire, x.divert)) = some (6, none)) ∧
    (m.desc.scratch ≤ m.freed.length → m.retire = 6 → s.settled m.allDid = true →
      let c := s.counter? m.part m.desc.done
      let dec := decide (m.st = .done) && decide (m.desc.done ≠ 0xFFFFFFFF) && c.any fun x => decide (1 ≤ x.value)
      ∃ s' : State, exec .retireRelease s = .next s' ∧ s'.mem = s.mem ∧ s'.nym.out = s.nym.out ∧
        (s'.member? m.id).map (fun x => (x.retire, x.decremented)) = some (7, dec) ∧
        (dec = true → ∀ x ∈ s'.counters, x.handle = m.desc.done →
          ∀ y ∈ s.counters, s.counter? m.part m.desc.done = some y → x.value = y.value - 1) ∧
        (dec = false → s'.counters = s.counters) ∧
        (m.st = .done → m.desc.done ≠ 0xFFFFFFFF → (∃ x, c = some x ∧ x.value = 0) →
          ∃ u ∈ s'.underflows, u.handle = m.desc.done ∧ u.source = 3 ∧ u.job = m.job)) ∧
    (m.desc.scratch ≤ m.freed.length → m.retire = 7 → ∃ s' : State, exec .retireRelease s = .next s' ∧ s'.mem = s.mem ∧
      s'.nym.out = s.nym.out ++ [.done m.ep m.completion.bytes] ∧ s'.counters = s.counters ∧
      (s'.member? m.id).map (·.retire) = some 8) ∧
    (m.desc.scratch ≤ m.freed.length → m.retire = 8 → ∃ s' : State, exec .retireRelease s = .next s' ∧ s'.mem = s.mem ∧
      s'.nym.out = s.nym.out ∧ ∀ x ∈ s'.members, x.id ≠ m.id)) ∧
  (∀ m : Member,
    let b := m.completion.bytes
    b.length = 48 ∧ slice b 0 2 = [0x81, 0x01] ∧ slice b 34 2 = [0, 0] ∧
    slice b 3 1 = [BitVec.ofNat 8 ((if m.byYput then 1 else 0) + if m.decremented then 2 else 0)] ∧
    ∀ x ∈ [(2, 1, m.endCode), (4, 4, m.id), (8, 8, m.job.toNat), (16, 8, m.desc.replytag.toNat), (24, 4, m.index),
      (28, 2, m.acct), (30, 2, m.nfault), (32, 2, m.fault1.getD 0xFFFF), (36, 4, m.version), (40, 8, m.issue)],
      sliceNat b x.1 x.2.1 = x.2.2 % 2 ^ (8 * x.2.1))) ∧
  (∀ (s : State) (m : Member), s.input = .id m.id → s.member? m.id = some m →
    (m.st ≠ .done → m.st ≠ .cancelled → exec .memberQuiesced s = .next s) ∧
    (s.quiescent m = false → exec .memberQuiesced s = .next s) ∧
    (m.quiesced = false → exec .retireRelease s = .next s) ∧
    (m.quiesced = true → m.desc.scratch ≤ m.freed.length → m.retire = 6 → s.settled m.allDid = false →
      exec .retireRelease s = .next s))

/-- R77, R78: every 4,096 cycles each section advertises; the entries that a section sends to an advertised core
become Moving in one message, at most 16; the receiver accepts those that fit, which are its own from then
on, in the state they held, and those of a job that it has marked; the sender takes the others back.

R126, R129, R82, R83, R480: once a thread has been held at its label for 64 cycles, the threads held there
go on together; a pause ends with its window; a core with no ready thread for 32 cycles, and no resume to it
in progress, is gated, a ready one wakes it, its wake ends 144 cycles later, and the first issue after its
wakes counts for each the latency from the waking event.

Where it rests on a choice of the model and not on a rule, the choice is log entries 38, 43 and 87. -/
def Obligations.MigrationAndTimers : Prop :=
  ((∀ s : State, (s.advertAt ≤ s.clock → exec .sectionAdvertise s =
      .next { s with adverts := s.allAdverts, advertAt := s.clock + 4096 }) ∧
    (s.clock < s.advertAt → exec .sectionAdvertise s = .next s)) ∧
  (∀ (s : State) (sect part : Nat) (cls : CoreClass) (m : Member) (rest : List Member) (a : Advert) (t : DWord),
    s.input = .sect sect part cls → s.pool sect part cls = m :: rest → m.firstSince = some t →
    t.toNat + 8192 ≤ s.clock.toNat → s.choose m sect = none →
    (s.adverts.find? fun a => a.sect != sect && a.takes m) = some a →
    let ms := ((m :: rest).filter fun x => x.mayMove && a.takes x).take 16
    ms ≠ [] → ∃ s' : State, ∃ v : Move, exec .migrationSend s = .next s' ∧ s'.mem = s.mem ∧ s'.moves = s.moves ++ [v] ∧
      v.src = sect ∧ v.dst = a.sect ∧ v.members = ms.map (·.id) ∧ v.accepted = none ∧
      ∀ x ∈ ms, s.member? x.id = some x →
        (s'.member? x.id).map (·.st) = some (.moving (x.st == .parked))) ∧
  (∀ (s : State) (v : Move), s.input = .id v.id → (s.moves.find? fun x => x.id == v.id) = some v →
    v.accepted = none → ∃ (s' : State) (taken : List Nat), exec .migrationReceive s = .next s' ∧ s'.mem = s.mem ∧
      (s'.moves.find? fun x => x.id == v.id) = some { v with accepted := some taken } ∧
      (∀ i ∈ taken, i ∈ v.members) ∧
      ∀ (m : Member) (was : Bool), s.member? m.id = some m → m.st = .moving was →
        (m.id ∈ taken → s.marked m.part m.job v.dst = false →
          (s'.member? m.id).map (fun x => (x.st, x.sect, x.moved)) =
            some (if was then .parked else .ready, v.dst, true)) ∧
        (m.id ∈ v.members → s.marked m.part m.job v.dst = true → m.id ∈ taken) ∧
        (m.id ∉ taken → (s'.member? m.id).map (fun x => (x.st, x.sect)) = some (.moving was, m.sect))) ∧
  (∀ (s : State) (v : Move) (taken : List Nat), s.input = .id v.id → (s.moves.find? fun x => x.id == v.id) = some v →
    v.accepted = some taken → ∃ s' : State, exec .migrationReply s = .next s' ∧ s'.mem = s.mem ∧
      s'.moves = s.moves.filter (fun x => x.id != v.id) ∧
      ∀ (m : Member) (was : Bool), s.member? m.id = some m → m.st = .moving was → m.id ∈ v.members →
        m.id ∉ taken → s.marked m.part m.job m.sect = false →
        (s'.member? m.id).map (fun x => (x.st, x.sect)) = some (if was then .parked else .ready, m.sect))) ∧
  ((∀ (s : State) (t : Thread) (since : DWord), s.input = .id t.uid → s.thread? t.uid = some t → t.wait = .held since →
    (since.toNat + 64 ≤ s.clock.toNat → ∃ s' : State, exec .joinHoldTimeout s = .next s' ∧ s'.mem = s.mem ∧
      s'.threads = s.threads.map fun x => if x.crew = t.crew ∧ x.join = some t.pc ∧ x.pc = t.pc then
        { x with join := none, wait := match x.wait with | .held _ => .none | w => w } else x) ∧
    (s.clock.toNat < since.toNat + 64 → exec .joinHoldTimeout s = .next s)) ∧
  (∀ (s : State) (t : Thread) (e : DWord), s.input = .id t.uid → s.thread? t.uid = some t → t.pause = some e →
    (e ≤ s.clock → exec .pauseWindowClose s = .next (s.modThread t.uid fun x => { x with pause := none })) ∧
    (s.clock < e → exec .pauseWindowClose s = .next s)) ∧
  (∀ (s : State) (c : Nat), s.input = .id c →
    ((∀ t ∈ s.threads, t.core = c → s.isReady t = false) →
      (∀ m ∈ s.members, m.core = c → m.st = .running → m.divert = none) → (s.core c).gated = false →
      (s.core c).lastActive.toNat + 32 ≤ s.clock.toNat →
      ∃ s' : State, exec .coreClockGate s = .next s' ∧ s'.core c = { s.core c with gated := true, wakeAt := none } ∧
        s'.mem = s.mem ∧ s'.threads = s.threads) ∧
    ((∃ t ∈ s.threads, t.core = c ∧ s.isReady t = true) ∨
      (∃ m ∈ s.members, m.core = c ∧ m.st = .running ∧ m.divert ≠ none) → exec .coreClockGate s = .next s) ∧
    ((∃ t ∈ s.threads, t.core = c ∧ s.isReady t = true) → (s.core c).gated = true → (s.core c).wakeAt = none →
      ∃ s' : State, exec .coreWake s = .next s' ∧ s'.core c = { s.core c with
          wakeAt := some (s.clock + 144), woken := (s.core c).woken ++ [s.clock] } ∧
        s'.mem = s.mem ∧ s'.threads = s.threads) ∧
    (∀ w, (s.core c).wakeAt = some w → (s.core c).gated = true → w ≤ s.clock →
      ∃ s' : State, exec .wakeEnd s = .next s' ∧ s'.mem = s.mem ∧ s'.threads = s.threads ∧
        s'.core c = { s.core c with gated := false, lastActive := s.clock }) ∧
    (∀ w, (s.core c).wakeAt = some w → s.clock < w → exec .wakeEnd s = .next s)) ∧
  (∀ (s : State) (t : Thread), (s.core t.core).woken ≠ [] → s.isReady t = true →
    ((s.firstIssue t).core t.core).woken = [] ∧ (s.firstIssue t).threads = s.threads ∧
    (s.firstIssue t).nym.life.wake = (s.core t.core).woken.foldl
      (fun counts e => countUp counts (bucketOf (s.clock.toNat - e.toNat)) 1) s.nym.life.wake))

/-- R86, R202, R213: when the walk of a thread ends, its access passes and leaves for its home, traps with the
cause of its check, or parks the thread at a page that is not there.

R213: the service of a page fault installs a page of the partition's ranges and its parked threads make
their access again; parked at a page outside them, a thread traps. An invalid leaf below valid tables
becomes a fresh zero-filled page, in a frame without an uncorrectable error, or the page of any size that
was removed from there; a thread that would end as a lane waits until it can.

R209, R211, R212: Nymesque makes the entries of a page of any size invalid, changes their permission, cache
and heat bits, or rewrites the page at another size or frame, once no access is on its way to a frame that
it or its new size takes in; a sweep lowers each heat of every valid leaf by one, and changes no other bit
of it.

Where it rests on a choice of the model and not on a rule, the choice is log entries 10, 55 and 108. -/
def Obligations.TranslationAndPages : Prop :=
  (∀ (s : State) (t : Thread) (m : Member) (op : MemOp) (n : Need), s.input = .id t.uid → s.thread? t.uid = some t →
    t.wait = .walk op → op.needs = [n] → (∀ o r, op ≠ .flush o r) → MayAccess s t m op →
    (∀ c a, s.check m n = .deny c a → exec .translationWalkEnd s = .next (s.trap t.uid c a)) ∧
    (∀ page, s.check m n = .absent page → ∃ s' : State, exec .translationWalkEnd s = .next s' ∧ s'.mem = s.mem ∧
      s'.faults.contains (m.part, page) = true ∧ s'.thread? t.uid = some { t with wait := .parked op page }) ∧
    (∀ l leaf, s.check m n = .pass l leaf →
      let s1 := (s.goVia t m [n] [l]).noteShared t m n l leaf
      (∀ a z g dst, op = .load a z g dst → exec .translationWalkEnd s = .next (s1.sendLoad t l z g dst)) ∧
      (∀ a bs, op = .store a bs → exec .translationWalkEnd s = .next (s1.sendStore t l bs)) ∧
      (∀ a k o c x dst, op = .atomic a k o c x dst →
        exec .translationWalkEnd s = .next (s1.sendAtomic t l k o c x dst)) ∧
      (∀ j x, leaf = some j → Memory.wf s.mem = true → x < j ∨ j + 8 ≤ x →
        (s.raiseHeat j n.write).mem.byte x = s.mem.byte x))) ∧
  ((∀ (s : State) (part page : Nat), s.input = .page part page → s.faults.contains (part, page) = true →
    s.pageInRanges part page = true →
    ∃ s' : State, exec .pageFaultService s = .next s' ∧ s'.faults.contains (part, page) = false ∧
      s'.threads = s.threads.map (fun t => if s.parkedAt part page t then { t with wait := .none } else t) ∧
      s'.members = s.members) ∧
  (∀ (s : State) (t : Thread) (m : Member) (op : MemOp) (part page : Nat), s.input = .page part page →
    s.faults.contains (part, page) = true → s.pageInRanges part page = false →
    s.threads.filter (s.parkedAt part page) = [t] → t.wait = .parked op page → (∀ o r, op ≠ .flush o r) →
    s.member? t.member = some m →
    let s1 := { s with faults := s.faults.filter fun f => f != (part, page) }
    (s.trapHeld t.uid = false → exec .pageFaultService s = .next (s1.trap t.uid 0x085 (s1.faultAddr m op page))) ∧
    (s.trapHeld t.uid = true → exec .pageFaultService s = .next s)) ∧
  (∀ (s : State) (part page : Nat),
    let e1 := s.entryAt (s.entry1 part page)
    let a2 := entryFrame e1 + 8 * (page / 2 ^ 13 % 8192)
    let a3 := entryFrame (s.entryAt a2) + 8 * (page % 8192)
    let e3 := s.entryAt a3
    (entryOk e1 1 = true → entryOk (s.entryAt a2) 2 = true → (s.entryAt a2).getLsbD 1 = false →
      entryOk e3 3 = false →
      (entryFrame e3 ≠ 0 → s.installPage part page = s.mapEntries (runEntries a3 (entrySize e3)) (· ||| 1)) ∧
      (entryFrame e3 = 0 → ∃ n : Nat, s.nextFrame ≤ n ∧ (∀ l ∈ s.broken, l.space = 0 → l.off / 65536 ≠ n) ∧
        (s.broken = [] → n = s.nextFrame) ∧
        s.installPage part page = { s with nextFrame := n + 1 }.setEntry a3 (leafEntry (n * 65536)))) ∧
    (entryOk e1 1 = true → (s.entryAt a2).getLsbD 1 = true → entryOk (s.entryAt a2) 2 = false →
      s.installPage part page = s.mapEntries (runEntries a2 2) (· ||| 1)))) ∧
  ((∀ (s : State) (part : Nat) (va e : DWord) (w : Walk), s.input = .entry part va e →
    s.walk (s.rootOf part) va.toNat = some w →
    let z := entrySize w.leaf
    let page := va.toNat / 65536
    let n := Nat.max (spanOf (entrySize e)) (spanOf z)
    let busy := ∃ i < n, ∃ f, s.frameOf part (page / n * n + i) = some f ∧ s.frameInUse f = true
    (busy → exec .translationInvalidate s = .next s) ∧
    (¬busy → e.getLsbD 0 = false → exec .translationInvalidate s =
      .next (s.mapEntries (runEntries w.leafAt z) fun x => x &&& ~~~1)) ∧
    (¬busy → e.getLsbD 0 = true → entrySize e = z → entryFrame e = entryFrame w.leaf →
      exec .translationInvalidate s = .next (s.mapEntries (runEntries w.leafAt z) fun x =>
        (x &&& ~~~0xF00000000000000C) ||| (e &&& 0xF00000000000000C))) ∧
    (¬busy → e.getLsbD 0 = true → exec .translationInvalidate s = .next (s.rewritePage part page w e))) ∧
  (∀ (s : State) (a z : Nat) (f : DWord → DWord), Memory.wf s.mem = true →
    (∀ b ∈ runEntries a z, (s.mapEntries (runEntries a z) f).entryAt b = f (s.entryAt b)) ∧
    ∀ x, (∀ b ∈ runEntries a z, x < b ∨ b + 8 ≤ x) →
      (s.mapEntries (runEntries a z) f).mem.byte x = s.mem.byte x) ∧
  (∀ (s : State) (p : Partition), s.input = .id p.id → s.part? p.id = some p →
    (s.clock < p.sweepAt → exec .heatSweep s = .next s) ∧
    (p.sweepAt ≤ s.clock → ∃ s' : State, exec .heatSweep s = .next s' ∧ s'.mem = (s.coolAll (s.leaves p.root)).mem ∧
      s'.part? p.id = some { p with sweepAt := s.clock + BitVec.ofNat 64 (2 ^ p.cfg.sweepJ.getD 30) } ∧
      s'.threads = s.threads)) ∧
  ∀ e : DWord, (cool e).extractLsb' 0 60 = e.extractLsb' 0 60 ∧
    (cool e).extractLsb' 60 2 = (if e.extractLsb' 60 2 = 0 then 0 else e.extractLsb' 60 2 - 1) ∧
    (cool e).extractLsb' 62 2 = if e.extractLsb' 62 2 = 0 then 0 else e.extractLsb' 62 2 - 1)

/-- R47, R48, R72, R477: at an interval's end each usage figure decays, by the factor 2^(-2^20 / (h · 3.6 ·
10^9)) to within one unit, and takes in what was charged and the slots of its resident members for the
cycles since they were last billed, one of an S-core counting as four of an M-core; its resident counter
rises by the bytes of its members' scratchpads, shadow images and phase records (R476), and no other counter
changes. Each deficit is computed anew; a flash write keeps every account's counters.

R439, R440, R480, R35, R36: a snapshot is latched where none is and is dropped where one is, and collected
into the newest four, the oldest going; retrains, correctable errors and dropped packets are counted up to
2^64 - 1.

R477, R28: when power is lost all work ends; flash, fuses and the journal stay, and the lifetime counters go
on from their last write.

Where it rests on a choice of the model and not on a rule, the choice is log entries 5, 37 and 54. -/
def Obligations.UsageAndRecords : Prop :=
  ((∀ (s : State) (a : Account), s.acct? a.id = some a →
    (s.clock < s.usageAt → exec .usageInterval s = .next s) ∧
    (s.usageAt ≤ s.clock → ∃ s' : State, ∃ a' : Account, exec .usageInterval s = .next s' ∧ s'.mem = s.mem ∧ s'.threads = s.threads ∧
      s'.usageAt = s.clock + 0x100000 ∧ s'.acct? a.id = some a' ∧ a'.charge = 0 ∧ a'.cfg = a.cfg ∧
      (a'.deficit, a'.deficitDen) = s'.deficitNow a' ∧
      ((∀ m ∈ s.members, m.acct ≠ a.id) → a'.figure = decayed s.nym.halfLife a.figure + a.charge ∧
        a'.usage = a.usage) ∧
      ((s.members.map (·.id)).Nodup →
        let own := s.members.filter fun m => m.acct == a.id
        let held (m : Member) : Nat := if m.resident then (s.clock - m.billed).toNat * (m.desc.width + m.desc.spslots) *
          (if m.desc.coreClass = .mcore then 1 else 4) else 0
        let bytes (m : Member) : Nat := (if m.resident then (m.desc.scratch - m.freed.length) * 65536 else 0) +
          (if m.divert.isSome && m.st != .cancelled then
            m.desc.scratch * 65536 - ((m.regions.map fun r => r.units * 65536).foldl (· + ·) 0) else 0) + m.parkedBytes
        a'.figure = decayed s.nym.halfLife a.figure + a.charge + ((own.map held).foldl (· + ·) 0) ∧
        a'.usage.resident = (if own = [] then a.usage.resident
          else Nat.min (a.usage.resident + ((own.map bytes).foldl (· + ·) 0)) (2 ^ 64 - 1)) ∧
        let others (u : Usage) := [u.cells, u.issue, u.mem, u.copy, u.net, u.sieve]
        ((∀ n ∈ others a.usage, n < 2 ^ 64) → others a'.usage = others a.usage)))) ∧
  (∀ h u : Nat, 1 ≤ h → (decayed h u - 1) ^ (h * 3600000000) * 2 ^ 1048576 ≤ u ^ (h * 3600000000) ∧
    u ^ (h * 3600000000) ≤ (decayed h u + 1) ^ (h * 3600000000) * 2 ^ 1048576) ∧
  (∀ s : State, ∃ s' : State, exec .usageFlashWrite s = .next s' ∧ s'.mem = s.mem ∧ s'.accts = s.accts ∧
    s'.nym.flashLife = s.nym.life ∧
    (∀ a ∈ s.accts, (∀ b ∈ s.accts, b.id = a.id → b = a) → assoc s'.nym.flashUsage a.id = some a.usage) ∧
    ∀ k, (∀ a ∈ s.accts, a.id ≠ k) → assoc s'.nym.flashUsage k = assoc s.nym.flashUsage k)) ∧
  ((∀ (s : State) (p : Partition), s.input = .id p.id → s.part? p.id = some p →
    (p.latched = none → exec .snapshotNymesque s = .next (s.modPart p.id fun x =>
      { x with latched := some (s.snapHeader p.id 0 0 0xFFFF 0xFFFF 1) }) ∧
      let k := s.snapHeader p.id 0 0 0xFFFF 0xFFFF 1
      (k.time, k.job, k.tag, k.core, k.tid, k.kind, k.part) = (s.clock, 0, 0, 0xFFFF, 0xFFFF, 1, p.id)) ∧
    (∀ k, p.latched = some k → exec .snapshotNymesque s = .next s ∧
      ∃ s' : State, ∃ p' : Partition, exec .snapshotCollect s = .next s' ∧ s'.mem = s.mem ∧ s'.part? p.id = some p' ∧ p'.latched = none ∧
        p'.snaps.getLast? = some k ∧ (p.snaps.length ≤ 4 → p'.snaps.length ≤ 4) ∧
        (p.snaps.length < 4 → p'.snaps = p.snaps ++ [k]) ∧ (p.snaps.length = 4 → p'.snaps = p.snaps.drop 1 ++ [k]))) ∧
  (∀ (s : State) (k : LinkKind) (i n : Nat), s.input = .link k i → linkNumber k i = some n →
    ∃ s' : State, exec .linkRetrain s = .next s' ∧ s'.mem = s.mem ∧ s'.threads = s.threads ∧
      assoc s'.nym.life.retrains n = some (Nat.min ((assoc s.nym.life.retrains n).getD 0 + 1) (2 ^ 64 - 1)) ∧
      ∀ j, j ≠ n → assoc s'.nym.life.retrains j = assoc s.nym.life.retrains j) ∧
  (∀ (s : State) (stack band : Nat), s.input = .error stack band → stack < 16 → band < 4 →
    ∃ s' : State, exec .correctableError s = .next s' ∧ s'.mem = s.mem ∧ s'.threads = s.threads ∧
      assoc s'.nym.life.errors (4 * stack + band) =
        some (Nat.min ((assoc s.nym.life.errors (4 * stack + band)).getD 0 + 1) (2 ^ 64 - 1))) ∧
  (∀ (s : State) (port : Nat), s.input = .packet port → s.nym.sill = .running → port < 8 →
    ∃ s' : State, exec .droppedPacket s = .next s' ∧ s'.nym.out = s.nym.out ∧ s'.mem = s.mem ∧
      assoc s'.nym.portErrors port = some (Nat.min ((assoc s.nym.portErrors port).getD 0 + 1) (2 ^ 64 - 1)))) ∧
  (∀ s : State, ∃ s' : State, exec .powerLoss s = .next s' ∧ s'.nym.sill = .off ∧ s'.threads = [] ∧ s'.members = [] ∧
    s'.crews = [] ∧ s'.mem = [] ∧ s'.parts = [] ∧ s'.accts = [] ∧ s'.containers = [] ∧ s'.queue = [] ∧
    s'.counters = [] ∧ s'.nym.boots = s.nym.boots ∧ s'.nym.journal = s.nym.journal ∧
    s'.nym.fw = s.nym.fw.map (fun x => { x with bootedB := false }) ∧ s'.nym.floor = s.nym.floor ∧ s'.nym.flashParts = s.nym.flashParts ∧
    s'.nym.flashAccts = s.nym.flashAccts ∧ s'.nym.flashSeqs = s.nym.flashSeqs ∧
    s'.nym.flashUsage = s.nym.flashUsage ∧ s'.nym.life = s.nym.flashLife)

/-- R36 to R39: a tagged send is the request of its kind byte, with the header of R37. A reply goes to the
sender with the request's identifier. A request is malformed when its format, a reserved field, its account
or its length is bad, or its payload is not of its kind's form; a repeat of an identifier gets the stored
reply and does nothing; a malformed request is answered 0x09, and one of the wrong endpoint 0x08 or 0x0C; a
kind that is none of the table's is answered 0x09; at an endpoint of no partition a request is dropped and
counted at a port.

Where it rests on a choice of the model and not on a rule, the choice is log entries 18, 26, 68, 74 and 85. -/
def Obligations.RequestsAnswered : Prop :=
  let kinds : List (Instr × Byte × Sender) := [(.load, 1, .partition), (.patch, 2, .partition),
    (.unload, 3, .partition), (.launch, 4, .partition), (.cancel, 5, .partition), (.usage, 6, .both),
    (.attest, 7, .both), (.status, 8, .jobZero), (.jsig, 9, .partition), (.move, 10, .partition),
    (.partcfg, 11, .operator), (.acctcfg, 12, .operator), (.fwupd, 13, .operator), (.unknownRequest, 0, .both)]
  (∀ (s : State) (ep src : Nat) (bs : List Byte), s.input = .message ep src bs → 32 ≤ bs.length →
    let h := headerOf ep src bs
    (∀ k : Byte, 1 ≤ k.toNat → k.toNat ≤ 13 → bs[0]? = some k → s.requestFor k = some (requestOf ep src bs)) ∧
    ((∀ k : Byte, bs[0]? = some k → k = 0 ∨ 13 < k.toNat) → s.requestFor 0 = some (requestOf ep src bs)) ∧
    (requestOf ep src bs).1 = h ∧ h.format = bs.getD 1 0 ∧ h.prio = bs.getD 2 0 ∧
    (h.reserved = false ↔ bs.getD 3 0 = 0 ∧ bs.getD 26 0 = 0 ∧ bs.getD 27 0 = 0) ∧
    h.length = leWord (slice bs 4 4) ∧ h.reqid = leDWord (slice bs 8 8) ∧ h.job = leDWord (slice bs 16 8) ∧
    h.acct = sliceNat bs 24 2 ∧ h.handle = leWord (slice bs 28 4) ∧
    let rest := bs.drop 32
    let k := (bs.getD 0 0).toNat
    (requestOk h (requestOf ep src bs).2 = true ↔ bs.getD 1 0 = 1 ∧ bs.getD 3 0 = 0 ∧ bs.getD 26 0 = 0 ∧ bs.getD 27 0 = 0 ∧
      sliceNat bs 24 2 ≤ 1023 ∧ sliceNat bs 4 4 = rest.length ∧ (k ∈ [3, 5, 8] → rest = []) ∧
      (k = 6 → rest.length % 2 = 0) ∧ (k = 9 → rest.length = 4) ∧ (k = 10 → rest.length = 24) ∧
      (k ∈ [2, 11, 12, 13] → rest ≠ []) ∧ (k = 2 → (Config.patchOf rest).isSome = true) ∧
      (k = 11 → (Config.partcfgOf rest).isSome = true) ∧ (k = 12 → (Config.acctcfgOf rest).isSome = true) ∧
      (k = 13 → (Config.imageOf rest).isSome = true))) ∧
  (∀ (s : State) (h : ReqHdr) (st : Nat) (b : ReplyBody), ∃ s' : State, s.reply h st b = s' ∧
    s'.nym.out = s.nym.out ++ [.reply h.src h.reqid st b] ∧ s'.mem = s.mem ∧
    ∀ x ∈ s'.nym.seen, x.ep = h.ep → x.reqid = h.reqid → x.reply = some (.reply h.src h.reqid st b)) ∧
  (∀ k ∈ kinds, ∀ (s : State) (h : ReqHdr) (p : Payload) (part : Nat), Arrives s k.2.1 h p part →
    (requestOk h p = false → Answers k.1 s h 0x09) ∧
    (requestOk h p = true → k.2.2 = .partition → h.ep = 0 → Answers k.1 s h 0x08) ∧
    (requestOk h p = true → k.2.2 = .operator → h.ep ≠ 0 → Answers k.1 s h 0x0C) ∧
    (requestOk h p = true → k.2.2 = .jobZero → h.ep = 0 → h.job ≠ 0 → Answers k.1 s h 0x08) ∧
    (requestOk h p = true → k.1 = .unknownRequest → Answers k.1 s h 0x09)) ∧
  (∀ k ∈ kinds, ∀ (s : State) (h : ReqHdr) (p : Payload) (x : Seen), s.requestFor k.2.1 = some (h, p) →
    s.nym.sill = .running → h.ep = 0 ∨ (s.endpointPart h.ep).isSome = true →
    (s.nym.seen.find? fun x => x.ep == h.ep && x.reqid == h.reqid) = some x →
    (x.reply = none → exec k.1 s = .next s) ∧
    (∀ d r st b, x.reply = some (.reply d r st b) → exec k.1 s = .next (s.send [.reply h.src r st b]))) ∧
  (∀ k ∈ kinds, ∀ (s : State) (h : ReqHdr) (p : Payload), s.requestFor k.2.1 = some (h, p) →
    s.nym.sill = .running → h.ep ≠ 0 → s.endpointPart h.ep = none →
    ∃ s' : State, ∃ port : Nat, exec k.1 s = .next s' ∧ port < 8 ∧ s'.nym.out = s.nym.out ∧ s'.nym.seen = s.nym.seen ∧
      s'.nym.portErrors = countUp s.nym.portErrors port 1 ∧ s'.mem = s.mem ∧ s'.members = s.members)

/-- R7 to R11, R15, R24: what LOAD checks of a container's bytes, in the order of R15: the header, its class,
the digest, a signature where the partition requires one, then the section table, the function table, the
cross-references and the templates.

R15, R20 to R23: LOAD answers the first check that fails, or makes version 1 of a new container; PATCH
answers 0x0B, 0x09, 0x06, 0x05 or 0x04, or adds a version with the function's new words behind the others;
UNLOAD removes a container without references, or answers 0x10.

R16, R17, R24, R50, R51, R481: which launch records are well made, and which exceed their column or a unit
of their core class.

R481, R49: LAUNCH answers the first check that fails, in order: 0x09, 0x0B, 0x08, 0x0A, 0x06, 0x05, 0x0B,
0x0D; one that passes all waits in its queue, bound to its version, and is not answered yet.

Where it rests on a choice of the model and not on a rule, the choice is log entries 14, 15, 16, 17, 18, 65,
66, 83 and 100. -/
def Obligations.ContainerAndLaunchRequests : Prop :=
  (∀ (bs : List Byte) (cfg : PartCfg),
    let f (a n : Nat) : Nat := sliceNat bs a n
    let n := f 8 4
    let kind (i : Nat) := f (64 + 16 * i) 2
    let flags (i : Nat) := f (66 + 16 * i) 2
    let off (i : Nat) := f (68 + 16 * i) 4
    let len (i : Nat) := f (72 + 16 * i) 4
    let sect (k : Nat) : List Byte := match (List.range n).find? fun i => kind i == k with
      | none => []
      | some i => (bs.drop (off i)).take (len i)
    let header : Prop := 64 ≤ bs.length ∧ slice bs 0 4 = [0x4D, 0x4C, 0x44, 0x00] ∧ f 4 2 = 1 ∧ f 16 4 ≤ 1 ∧
      f 20 4 = bs.length ∧ bs.length ≤ 2 ^ 31 - 64 ∧ f 56 8 = 0
    let signed : Prop := f 16 4 % 2 = 1 ∧ (∃ i < n, kind i = 10) ∧
      ∃ k ∈ cfg.contKeys, Config.verify k (slice bs 24 32) (sect 10) = true
    let table : Prop := 1 ≤ n ∧ n ≤ 256 ∧ 1 ≤ f 12 4 ∧ f 12 4 ≤ 4096 ∧ 64 + 16 * n ≤ bs.length ∧
      (∀ i < n, flags i ≤ 1 ∧ f (76 + 16 * i) 4 = 0 ∧ off i % 64 = 0 ∧ 64 + 16 * n ≤ off i ∧ off i + len i ≤ bs.length ∧
        ((1 ≤ kind i ∧ kind i ≤ 10) ∨ flags i = 1)) ∧
      (∀ i j, i < j → j < n → off j + len j ≤ off i ∨ off i + len i ≤ off j) ∧
      (∀ i j, i < j → j < n → kind i = kind j → kind i = 0 ∨ 10 < kind i) ∧
      (∃ i < n, kind i = 1) ∧ (f 16 4 = 1 ↔ ∃ i < n, kind i = 10)
    let w (i k : Nat) : Nat := sliceNat (sect 1) (32 * i + 4 * k) 4
    let has (x m : Nat) : Prop := x = 0xFFFFFFFF ∨ x < m
    let words := (sect 6).length / 4
    let funcs : Prop := (sect 1).length = 32 * f 12 4 ∧
      (∀ i < f 12 4, w i 7 = 0 ∧ has (w i 2) (sect 2).length ∧ has (w i 3) (sect 3).length ∧ has (w i 4) (sect 4).length ∧
        has (w i 5) words ∧ has (w i 6) words ∧ (w i 5 ≠ 0xFFFFFFFF → w i 6 ≠ 0xFFFFFFFF) ∧
        ∃ k, 2 ≤ k ∧ k ≤ 5 ∧ w i k ≠ 0xFFFFFFFF) ∧
      ∀ i j, i < j → j < f 12 4 → w i 0 ≠ w j 0
    let x (i k : Nat) : Nat := sliceNat (sect 5) (16 * i + 4 * k) 4
    let xrefs : Prop := (∀ i < (sect 5).length / 16, 1 ≤ x i 0 ∧ x i 0 ≤ 2 ∧ ∃ j < f 12 4, w j 0 = x i 1) ∧
      ∀ i j, i < j → j < (sect 5).length / 16 → ¬(x i 0 = x j 0 ∧ x i 1 = x j 1 ∧ x i 2 = x j 2)
    let sound : Prop := table ∧ funcs ∧ xrefs ∧ (sect 6).length % 4 = 0 ∧ (sect 5).length % 16 = 0 ∧
      (sect 8).length % 256 = 0 ∧
      ∀ i < (sect 8).length / 256, (recordOf (slice (sect 8) (256 * i) 256)).fieldsOk = true
    let status := containerStatus bs cfg
    (¬header → status = some 0x01) ∧
    (header → (f 6 2 ≠ 0 ∧ f 6 2 ≠ 9 → status = some 0x03) ∧ (f 6 2 = 0 ∨ f 6 2 = 9 →
      (Config.sha256 (bs.drop 64) ≠ slice bs 24 32 → status = some 0x02) ∧
      (Config.sha256 (bs.drop 64) = slice bs 24 32 →
        (cfg.sigReq = true → ¬signed → status = some 0x07) ∧
        (cfg.sigReq = false ∨ signed → (¬sound → status = some 0x01) ∧ (sound → status = none)))))) ∧
  ((∀ (s : State) (h : ReqHdr) (bs : List Byte) (part : Nat) (x : Partition), Arrives s 1 h (.container bs) part →
    h.ep ≠ 0 → requestOk h (.container bs) = true → s.part? part = some x →
    let base := (s.noteSeen h).imageBase part (imagesSpan (sharedImagesOf (sectionOf bs 7)))
    let bodies (a : DWord) : Option (List Word × List Func) :=
      chooseBodies bs (funcsOf bs) (patchedWords (sectionOf bs 7) a (wordsIn (sectionOf bs 6)))
    (∀ st, containerStatus bs x.cfg = some st → Answers .load s h st) ∧
    (containerStatus bs x.cfg = none →
      (loadOver bs = true → Answers .load s h 0x05) ∧
      (loadOver bs = false → base = none → Answers .load s h 0x05) ∧
      (∀ a, loadOver bs = false → base = some a → bodies a = none → Answers .load s h 0x04) ∧
      (∀ a ws fs, loadOver bs = false → base = some a → bodies a = some (ws, fs) →
        ∃ s' : State, ∃ c : Container, ∃ v : Version, exec .load s = .next s' ∧ s'.containers = s.containers ++ [c] ∧ c.part = part ∧ c.current = 1 ∧
          c.cls = sliceNat bs 6 2 ∧ c.versions = [v] ∧ v.num = 1 ∧ v.words = ws ∧ v.funcs = fs ∧
          v.templates = placedTemplates (sectionOf bs 7) a (templatesIn (sectionOf bs 8)) ∧
          s'.nym.out = s.nym.out ++ [.reply h.src h.reqid 0 (.loaded c.handle 1)] ∧ s'.members = s.members))) ∧
  (∀ (s : State) (h : ReqHdr) (b : PatchBody) (part : Nat), Arrives s 2 h (.patch b) part →
    h.ep ≠ 0 → requestOk h (.patch b) = true →
    ((∀ c, s.container? h.handle = some c → c.part ≠ part) → Answers .patch s h 0x0B) ∧
    ∀ c, s.container? h.handle = some c → c.part = part →
      (c.version? c.current = none → Answers .patch s h 0x09) ∧
      ∀ v, c.version? c.current = some v →
        let good := (∃ f ∈ v.funcs, f.id = b.func) ∧ patchOk b = true
        (¬good → Answers .patch s h 0x09) ∧
        (good → 16 ≤ c.versions.length → Answers .patch s h 0x06) ∧
        (good → c.versions.length < 16 →
          (wordsOver c.cls (b.native.getD []) = true → Answers .patch s h 0x05) ∧
          (wordsOver c.cls (b.native.getD []) = false → patchWords b = none → Answers .patch s h 0x04) ∧
          ∀ ws e d, wordsOver c.cls (b.native.getD []) = false → patchWords b = some (ws, e, d) →
            ∃ s' : State, ∃ x : Container, exec .patch s = .next s' ∧ x ∈ s'.containers ∧ x.handle = c.handle ∧ x.part = c.part ∧
              x.current = c.current + 1 ∧ v.patch (c.current + 1) b.func ws e d ∈ x.versions ∧
              s'.nym.out = s.nym.out ++ [.reply h.src h.reqid 0 (.number (c.current + 1))] ∧ s'.mem = s.mem ∧
              s'.members = s.members)) ∧
  (∀ (v : Version) (n : Nat) (f : Word) (ws : List Word) (e d : Word) (j : Nat),
    (v.patch n f ws e d).words = v.words ++ ws ∧ (v.patch n f ws e d).num = n ∧
    ∀ x, (v.patch n f ws e d).funcs[j]? = some x → ∃ y, v.funcs[j]? = some y ∧ x.id = y.id ∧
      (y.id ≠ f → x = y) ∧ (y.id = f → x.entry = BitVec.ofNat 32 v.words.length + e ∧
        x.handler = BitVec.ofNat 32 v.words.length + d)) ∧
  (∀ (s : State) (h : ReqHdr) (part : Nat), Arrives s 3 h .empty part → h.ep ≠ 0 → requestOk h .empty = true →
    (s.containerIn part h.handle = none → Answers .unload s h 0x0B) ∧
    (∀ c, s.containerIn part h.handle = some c →
      (s.containerRefs c = 0 → ∃ s' : State, exec .unload s = .next s' ∧ (∀ x ∈ s'.containers, x.handle ≠ c.handle) ∧
        (∀ x ∈ s.containers, x.handle ≠ c.handle → x ∈ s'.containers) ∧
        s'.nym.out = s.nym.out ++ [.reply h.src h.reqid 0 .empty] ∧ s'.mem = s.mem ∧ s'.members = s.members) ∧
      (s.containerRefs c ≠ 0 →
        exec .unload s = .next ((s.noteSeen h).reply h 0x10 (.number (s.containerRefs c))))))) ∧
  ((∀ bs : List Byte,
    let f (a n : Nat) : Nat := sliceNat bs a n
    let zero (a n : Nat) : Prop := f a n = 0
    let fields : Prop := f 16 1 ≤ 1 ∧ 1 ≤ f 17 1 ∧ f 17 1 ≤ 64 ∧ 2 ≤ f 18 1 ∧ f 18 1 ≤ 32 ∧ f 19 1 ≤ 96 ∧ f 20 1 ≤ 64 ∧
      f 21 1 ≤ 32 ∧ f 22 1 ≤ 8 ∧ f 23 1 ≤ 16 ∧ (f 24 1 = 0 ∨ 2 ≤ f 24 1 ∧ f 24 1 ≤ 8) ∧ f 25 1 ≤ 64 ∧ f 27 1 % 2 = 0 ∧
      f 28 2 ≤ 2047 ∧ f 30 2 ≤ 3 ∧ 1 ≤ f 32 4 ∧ f 32 4 ≤ 65536 ∧ zero 44 4 ∧ f 48 16 % 2 = 0 ∧ f 128 8 % 32 = 0 ∧
      f 136 2 ≤ 1024 ∧ zero 138 2 ∧ zero 152 40 ∧ ∀ i < 4, let o := 192 + 16 * i
        f (o + 14) 1 < 16 ∧ f (o + 15) 1 ≤ 1 ∧ (f (o + 14) 1 / 4 ≠ 0 → 1 ≤ f (o + 8) 2 ∧ 1 ≤ f (o + 10) 2)
    ((recordOf bs).fieldsOk = true ↔ fields) ∧
    ∀ h : ReqHdr, launchMade h bs = true ↔ bs.length = 256 ∧ fields ∧ h.prio.toNat ≤ 3 ∧
      (leWord (slice bs 0 4) = 0 ∨ leWord (slice bs 0 4) = h.handle)) ∧
  ∀ (d : LaunchRec) (cls : Nat),
    let s := d.cls = 1
    let col (floor m sc : Nat) : Nat := if cls = 0 then floor else if s then sc else m
    d.over cls = true ↔ col 128 512 512 < 16 * d.regs ∨ col 32 96 64 < d.scratch ∨ col 16 64 0 < d.acc ∨
      col 8 32 0 < d.tiles ∨ col 4 8 8 < d.tags ∨ col 16 256 128 < d.cqcrew * (1 + d.spcrews) ∨ col 4 8 8 < d.depth ∨
      col 8 16 8 < d.rings ∨ (cls = 0 ∧ d.entry ≠ 0xFFFFFFFF) ∨ (if s then 512 else 2048) < d.width + d.spslots ∨
      (if s then 32768 else 131072) < (d.width + d.spslots) * d.regs * 16 ∨
      (s ∧ (d.flags.testBit 0 = true ∨ d.acc ≠ 0 ∨ d.tiles ≠ 0 ∨ 64 < d.scratch))) ∧
  (∀ (s : State) (h : ReqHdr) (bs : List Byte) (part : Nat), Arrives s 4 h (.record bs) part → h.ep ≠ 0 →
    requestOk h (.record bs) = true →
    let d := { recordOf bs with container := h.handle }
    (launchMade h bs = false → Answers .launch s h 0x09) ∧
    (launchMade h bs = true →
      ((∀ c, s.container? h.handle = some c → c.part ≠ part) → Answers .launch s h 0x0B) ∧
      ∀ c, s.container? h.handle = some c → c.part = part →
        (∀ st, s.launchBarred h part d = some st → Answers .launch s h st) ∧
        (s.acctIn part h.acct = false → s.launchBarred h part d = some 0x08) ∧
        (∀ a, s.acct? h.acct = some a → a.cfg.classLimit < h.prio.toNat → s.launchBarred h part d = some 0x08) ∧
        (d.flags.testBit 0 = true → (s.partMask part).getLsbD 0 = true → s.launchBarred h part d = some 0x08) ∧
        (∀ st, s.launchBarred h part d = some st → st ≠ 0x08 → st = 0x0A ∧ s.jobCancelled part h.job = true) ∧
        (s.launchBarred h part d = none → s.jobCancelled part h.job = false ∧
          (∀ st, c.bind d = .error st → Answers .launch s h st) ∧
          (c.named d.version = none → Answers .launch s h 0x06) ∧
          (∀ v, c.named d.version = some v → (∀ f ∈ v.funcs, f.id ≠ d.function) → Answers .launch s h 0x09) ∧
          (∀ v, c.named d.version = some v → (∃ f ∈ v.funcs, f.id = d.function) →
            d.over c.cls = true ∨ v.imageOver d = true → Answers .launch s h 0x05) ∧
          ∀ v, c.bind d = .ok v →
            (∀ st, s.launchLate h part d = some st → Answers .launch s h st) ∧
            (s.handleLive part d.gate = false ∨ s.handleLive part d.done = false → Answers .launch s h 0x0B) ∧
            (s.handleLive part d.gate = true → s.handleLive part d.done = true →
              ∀ a, s.acct? h.acct = some a → a.cfg.qbound ≤ (s.queueOf h.acct h.prio).length →
                Answers .launch s h 0x0D) ∧
            (s.launchLate h part d = none → ∃ s' : State, ∃ q : Queued, exec .launch s = .next s' ∧ s'.queue = s.queue ++ [q] ∧
              q.h = h ∧ q.part = part ∧ q.desc = d ∧ q.version = v.num ∧ s'.nym.out = s.nym.out ∧
              s'.mem = s.mem ∧ s'.members = s.members))))

/-- R41, R42, R37, R482: CANCEL answers the job's queued launches 0x0A and sets out for the four sections; JSIG
decrements a counter of the partition, or answers 0x0B or 0x0F; STATUS reports the states of a job's members
in the partition, its underflows and its snapshots, or for job 0 the capabilities of the device that are
lowered, the cores out of service and, at the operator's endpoint, the lifetime counts. MOVE outside the
ranges is answered 0x05 and moves nothing, else its length: it reads the pieces of the whole source and then
writes their bytes to those of the destination. A piece lies in one 4 KiB line; at a page that is there its
bytes are read as they stand, where no race or error has left them free, and written in their order, with no
other byte of memory changed but the heat of the page's leaf.

Where it rests on a choice of the model and not on a rule, the choice is log entries 23, 24 and 25. -/
def Obligations.JobRequests : Prop :=
  (∀ (write : Bool) (a : DWord) (n : Nat),
    ((piecesOf write a n).flatMap fun p => (List.range p.size).map fun i => p.addr + BitVec.ofNat 64 i) =
      ((List.range n).map fun i => a + BitVec.ofNat 64 i) ∧
    ∀ p ∈ piecesOf write a n, p.addr.toNat % 4096 + p.size ≤ 4096) ∧
  (∀ (s : State) (part agent : Nat) (clk : Clock) (p : Piece) (rest : List Piece) (bs : List Byte),
    let r := s.readOut false part agent clk [p]
    let q := r.1.readOut false part agent clk rest
    s.readOut false part agent clk (p :: rest) = (q.1, r.2 ++ q.2) ∧
    s.writeOut false part agent clk (p :: rest) bs =
      (s.writeOut false part agent clk [p] bs).writeOut false part agent clk rest (bs.drop p.size)) ∧
  (∀ (s : State) (part agent : Nat) (clk : Clock) (p : Piece) (v : Walk), Memory.wf s.mem = true →
    s.walk (s.rootOf part) p.addr.toNat = some v →
    let apart (x : Nat) : Prop := x < v.leafAt ∨ v.leafAt + 8 ≤ x
    let r := s.readOut false part agent clk [p]
    (s.poison.contains (v.pa / 4096) = false → s.meetsError ⟨0, v.pa⟩ p.size = false →
      (∀ i < p.size, apart (v.pa + i) ∧ ((s.shadowOf ((⟨0, v.pa⟩ : Loc).plus i)).read agent clk 0).2 = false) →
      r.2 = (List.range p.size).map fun i => s.mem.byte (v.pa + i)) ∧
    (∀ x, apart x → r.1.mem.byte x = s.mem.byte x) ∧
    ∀ bs : List Byte, bs.length = p.size →
      let w := s.writeOut false part agent clk [p] bs
      (∀ i < p.size, w.mem.byte (v.pa + i) = bs.getD i 0) ∧
      ∀ x, apart x → x < v.pa ∨ v.pa + p.size ≤ x → w.mem.byte x = s.mem.byte x) ∧
  ∀ (s : State) (k : Byte) (h : ReqHdr) (p : Payload) (part : Nat), Arrives s k h p part → requestOk h p = true →
    let s1 := s.noteSeen h
    (k = 5 → h.ep ≠ 0 → p = .empty → ∃ s' : State, ∃ c : CancelReq, exec .cancel s = .next s' ∧ s'.mem = s.mem ∧
      s'.queue = s.queue.filter (fun q => !(q.part == part && q.h.job == h.job)) ∧ s'.cancels = s.cancels ++ [c] ∧
      c.part = part ∧ c.job = h.job ∧ c.request = some h ∧ c.left = [0, 1, 2, 3] ∧
      s'.nym.out = s.nym.out ++ (s.queue.filter fun q => q.part == part && q.h.job == h.job).map
        (fun q => .reply q.h.src q.h.reqid 0x0A .empty) ∧
      ∀ x, s'.part? part = some x → h.job ∈ x.jobs) ∧
    (k = 9 → h.ep ≠ 0 → ∀ a, p = .counter a →
      (s.counter? part a = none → exec .jsig s = .next (s1.reply h 0x0B .empty)) ∧
      (∀ c, s.counter? part a = some c → c.value = 0 → exec .jsig s = .next (s1.reply h 0x0F .empty)) ∧
      (∀ c, s.counter? part a = some c → 1 ≤ c.value → ∃ s' : State, exec .jsig s = .next s' ∧ s'.mem = s.mem ∧
        s'.nym.out = s.nym.out ++ [.reply h.src h.reqid 0 (.number (c.value - 1))] ∧
        ∀ x ∈ s'.counters, x.handle = a → x.value = c.value - 1)) ∧
    (k = 8 → p = .empty → (h.ep = 0 → h.job = 0) → 
      (h.job = 0 → exec .status s = .next (s1.reply h 0 (.device s.nym.lowered
        (if 4 ∈ s.nym.lowered then (List.range 224).filter Config.needsRepair else [])
        (if h.ep = 0 then some s.nym.life else none)))) ∧
      (h.job ≠ 0 → ∀ x, s.part? part = some x → exec .status s = .next (s1.reply h 0 (.job
        ((s.members.filter fun m => m.part == part && m.job == h.job).map fun m => (m.id, m.st))
        (s.underflows.filter fun u => u.job == h.job && u.handle.toNat / 2 ^ 20 % 32 == part)
        ((x.snaps.filter fun n => n.job == h.job).map Snap.bytes))))) ∧
    (k = 10 → h.ep ≠ 0 → ∀ src dst len, p = .move src dst len →
      (inRanges (s.rangesOf part) src.toNat len.toNat = false ∨
        inRanges (s.rangesOf part) dst.toNat len.toNat = false → Answers .move s h 0x05) ∧
      (inRanges (s.rangesOf part) src.toNat len.toNat = true →
        inRanges (s.rangesOf part) dst.toNat len.toNat = true → ∃ s' : State, exec .move s = .next s' ∧
        s'.nym.out = s.nym.out ++ [.reply h.src h.reqid 0 (.number len.toNat)] ∧ s'.members = s.members ∧
        s'.queue = s.queue ∧
        let agent := agentC s.nextId
        let clk := Clock.raise (s1.reqClock h) agent 1
        let r := State.readOut { s1 with nextId := s.nextId + 1 } false part agent clk (piecesOf false src len.toNat)
        s'.mem = (r.1.writeOut false part agent (Clock.raise clk agent 2) (piecesOf true dst len.toNat) r.2).mem))

/-- R31, R36, R43 to R46, R53, R67, R211, R215, R330, R439: which partition and account configurations (R47) are
well made, which the device refuses since they share with another partition, take the operator's endpoint or
name a core out of service, and which would take away what is used. An extent lies in a partition's ranges
when each of its bytes does.

R33, R34, R43, R45, R47, R477 to R479: the operator's configurations apply when they are well made, bar no
other and remove nothing in use, and end the cancel marks of their partition (R42); an image goes to the
slot of its pair that did not boot; an attestation, which measures each booted image and lists the cores out
of service, and a usage report are signed over their fields, a report with the partition's next number.

Where it rests on a choice of the model and not on a rule, the choice is log entries 14, 18, 19, 20, 67, 68,
86, 95 and 101. -/
def Obligations.OperatorRequests : Prop :=
  ((∀ (rs : List (DWord × DWord)) (base len : Nat), inRanges rs base len = true ↔
    ∀ i < len, ∃ r ∈ rs, r.1.toNat ≤ base + i ∧ base + i < r.1.toNat + r.2.toNat) ∧
  (∀ (part : Nat) (c : PartCfg),
    let peer (i j : Nat) : Nat := (c.peerBytes.getD (32 * i + j) 0).toNat
    configOk part c = true ↔ part ≤ 31 ∧ c.mask.toNat < 2 ^ 11 ∧ c.ranges.length ≤ 16 ∧
      (∀ r ∈ c.ranges, r.1.toNat % 2 ^ 21 = 0 ∧ r.2.toNat % 2 ^ 21 = 0 ∧ r.1.toNat + r.2.toNat ≤ 2 ^ 51) ∧
      (∀ a ∈ c.accounts, a ≤ 1023) ∧ c.tenantKeys.length ≤ 64 ∧ (∀ k ∈ c.tenantKeys, k.1 ≤ 63) ∧
      c.contKeys.length ≤ 4 ∧ c.endpoints ≠ [] ∧ c.peerBytes.length % 32 = 0 ∧ c.peerBytes.length ≤ 2048 ∧
      (∀ i < c.peerBytes.length / 32, peer i 24 ≤ 1 ∧ peer i 25 ≤ 7 ∧ ∀ j, 26 ≤ j → j < 32 → peer i j = 0) ∧
      (∀ n, c.yardArea = some n → n ≤ 1024) ∧ (∀ n, c.ageLimit = some n → 1 ≤ n ∧ n ≤ 255) ∧
      (∀ n, c.sweepJ = some n → 24 ≤ n ∧ n ≤ 36) ∧ c.snapCodes.length ≤ 4 ∧
      (∀ x, c.sampler = some x → x.base.toNat % 64 = 0 ∧ 6 ≤ x.m ∧ x.m ≤ 20 ∧ 6 ≤ x.k ∧ x.k ≤ 20 ∧
        inRanges c.ranges x.base.toNat (64 + 32 * 2 ^ x.m) = true) ∧
      ∀ k, c.kv = some k → 1 ≤ k.pages ∧ k.pages ≤ 2 ^ 26 ∧ 1 ≤ k.seqs ∧ k.seqs ≤ 2 ^ 20 ∧
        k.pageBase.toNat % 2 ^ 21 = 0 ∧ k.sidecarBase.toNat % 2 ^ 21 = 0 ∧
        inRanges c.ranges k.pageBase.toNat (32768 * k.pages) = true ∧
        inRanges c.ranges k.sidecarBase.toNat (4096 * k.pages) = true) ∧
  (∀ (a : Nat) (c : AcctCfg), acctOk a c = true ↔
    a ≤ 1023 ∧ 1 ≤ c.weight ∧ c.weight ≤ 255 ∧ c.classLimit ≤ 3 ∧ 1 ≤ c.qbound ∧ c.qbound ≤ 65535 ∧ c.tenant ≤ 63) ∧
  ∀ (s : State) (part : Nat) (old new : PartCfg),
    let owns (c : PartCfg) (core : Nat) : Bool :=
      if core < 192 then c.clusters.getLsbD (core / 4) else c.scores.getLsbD (core - 192)
    let shares (a b : PartCfg) : Prop := (∃ i, a.clusters.getLsbD i = true ∧ b.clusters.getLsbD i = true) ∨
      (∃ i, a.scores.getLsbD i = true ∧ b.scores.getLsbD i = true) ∨
      (∃ x ∈ a.ranges, ∃ y ∈ b.ranges, x.1.toNat < y.1.toNat + y.2.toNat ∧ y.1.toNat < x.1.toNat + x.2.toNat) ∨
      (∃ x, x ∈ a.accounts ∧ x ∈ b.accounts) ∨ ∃ x, x ∈ a.endpoints ∧ x ∈ b.endpoints
    (s.configBarred part new = true ↔ (∃ p ∈ s.parts, p.id ≠ part ∧ shares new p.cfg) ∨ 0 ∈ new.endpoints ∨
      ∃ core < 224, 4 ∈ s.nym.lowered ∧ Config.needsRepair core = true ∧ owns new core = true) ∧
    (s.removesUsed part old new = true ↔
      (∃ m ∈ s.members, m.part = part ∧ ((m.onCore = true ∧ owns new m.core = false) ∨ m.acct ∉ new.accounts)) ∨
      ((∃ r ∈ old.ranges, inRanges new.ranges r.1.toNat r.2.toNat = false) ∧
        ((∃ m ∈ s.members, m.part = part) ∨ ∃ c ∈ s.containers, c.part = part ∧ ∃ v ∈ c.versions, ∃ x ∈ v.shared,
          inRanges new.ranges x.1.toNat x.2.length = false)))) ∧
  (∀ (s : State) (kind : Byte) (h : ReqHdr) (p : Payload) (part : Nat), Arrives s kind h p part →
    requestOk h p = true →
    (kind = 11 → h.ep = 0 → ∀ k c, p = .partcfg k c →
      (configOk k c = false → Answers .partcfg s h 0x09) ∧
      (configOk k c = true → s.configBarred k c = true → Answers .partcfg s h 0x08) ∧
      (∀ x, configOk k c = true → s.configBarred k c = false → s.part? k = some x →
        s.removesUsed k x.cfg c = true → Answers .partcfg s h 0x0E) ∧
      (configOk k c = true → s.configBarred k c = false → (∀ x, s.part? k = some x → s.removesUsed k x.cfg c = false) →
        ∃ s' : State, ∃ y : Partition, exec .partcfg s = .next s' ∧ s'.part? k = some y ∧ y.cfg = c ∧ y.jobs = [] ∧
          (s.part? k ≠ none → ∀ x, x ∈ s'.marks ↔ x ∈ s.marks ∧ x.part ≠ k) ∧
          assoc s'.nym.flashParts k = some c ∧ (∀ x ∈ s'.nym.flashParts, x.1 ≠ k → sharesWith c x.2 = false) ∧
          s'.nym.out = s.nym.out ++ [.reply h.src h.reqid 0 (.data (Config.configDigest c))])) ∧
    (kind = 12 → h.ep = 0 → ∀ a c, p = .acctcfg a c →
      (acctOk a c = false → Answers .acctcfg s h 0x09) ∧
      (acctOk a c = true → (∀ x, s.part? c.part = some x → a ∉ x.cfg.accounts) → Answers .acctcfg s h 0x08) ∧
      (∀ x, acctOk a c = true → s.part? c.part = some x → a ∈ x.cfg.accounts →
        ∃ s' : State, ∃ y : Account, exec .acctcfg s = .next s' ∧ s'.mem = s.mem ∧ s'.acct? a = some y ∧ y.cfg = c ∧
          assoc s'.nym.flashAccts a = some c ∧ s'.nym.out = s.nym.out ++ [.reply h.src h.reqid 0 .empty])) ∧
    (kind = 13 → h.ep = 0 → ∀ i, p = .image i →
      (s.nym.pair? i.id = none → Answers .fwupd s h 0x09) ∧
      ∀ x, s.nym.pair? i.id = some x → ∃ s' : State, ∃ y : FwPair, exec .fwupd s = .next s' ∧ s'.mem = s.mem ∧
        s'.nym.out = s.nym.out ++ [.reply h.src h.reqid 0 (.number (if x.bootedB then 0 else 1))] ∧
        s'.nym.pair? i.id = some y ∧ y.bootedB = x.bootedB ∧
        (x.bootedB = true → y.a = ⟨i, x.b.writeSeq + 1⟩ ∧ y.b = x.b) ∧
        (x.bootedB = false → y.b = ⟨i, x.a.writeSeq + 1⟩ ∧ y.a = x.a)) ∧
    (kind = 7 → ∀ bs, p = .nonce bs →
      (bs.length ≠ 32 → Answers .attest s h 0x09) ∧
      (bs.length = 32 → ∃ s' : State, ∃ a : Attest, exec .attest s = .next s' ∧ s'.mem = s.mem ∧
        s'.nym.out = s.nym.out ++ [.reply h.src h.reqid 0 (.attest a)] ∧ a.nonce = bs ∧
        a.signature = Config.sign { a with signature := [] }.bytes ∧ a.lowered = s.nym.lowered ∧
        a.cores = s.outCores ∧ a.firmware = s.nym.fw.map (fun x => Config.sha256 x.booted.image.body) ∧
        a.journal = Config.sha256 (s.nym.bootJournal.flatMap Journal.bytes))) ∧
    (kind = 6 → ∀ as owner, p = .accounts as → 1 ≤ as.length → as.length ≤ 1024 →
      (∀ a ∈ as, s.partOfAcct a = some owner) → h.ep = 0 ∨ owner = part →
      ∃ s' : State, ∃ r : Report, exec .usage s = .next s' ∧ s'.mem = s.mem ∧
        s'.nym.out = s.nym.out ++ [.reply h.src h.reqid 0 (.report r)] ∧
        r.part = owner ∧ r.seq = ((s.part? owner).map (·.seq)).getD 0 + 1 ∧
        r.entries = as.map (fun a => (a, s.usageOf a)) ∧
        assoc s'.nym.flashSeqs owner = some r.seq ∧ r.signature = Config.sign { r with signature := [] }.bytes) ∧
    (kind = 6 → ∀ as a, p = .accounts as → as.length ≤ 1024 → a ∈ as → s.acctOutside h part a = true → Answers .usage s h 0x08))

/-- R36, R369: an RMA operation outside the ranges of its endpoint's partition, or on a page that denies it, is
answered with an access error and has no effect; at an endpoint of no partition it is dropped and counted; a
get answers the bytes it read, a put is acknowledged after its bytes are written, an atomic is one step at
its home and answers the value it found.

Where it rests on a choice of the model and not on a rule, the choice is log entries 21, 25 and 55. -/
def Obligations.RemoteAccesses : Prop :=
  (∀ (s : State) (ep peer part : Nat) (addr : DWord) (i : Instr) (r : RmaReq) (n : Nat) (write aligned : Bool),
    (i, n, write, aligned) = (match r with
      | .put bs => (Instr.rmaPut, bs.length, true, true)
      | .get n => (.rmaGet, n, false, true)
      | .atomic _ wide _ _ => (.rmaAtomic, (if wide then 8 else 4), true,
          addr.toNat % (if wide then 8 else 4) == 0)) →
    s.input = .rma ep peer addr r → s.endpointPart ep = some part → s.nym.sill = .running →
    s.settled (s.epClock peer) = true →
    let ps := piecesOf write addr n
    let s1 := s.touchAll part ps
    let agent := agentP peer
    let clk := Clock.raise (s.epClock peer) agent (Clock.get (s.epClock peer) agent + 1)
    (aligned = false ∨ inRanges (s.rangesOf part) addr.toNat n = false →
      exec i s = .next (s.send [.rma peer false []])) ∧
    (aligned = true → inRanges (s.rangesOf part) addr.toNat n = true → s1.rmaAllowed part ps = false →
      exec i s = .next (s1.send [.rma peer false []])) ∧
    (aligned = true → inRanges (s.rangesOf part) addr.toNat n = true → s1.rmaAllowed part ps = true →
      (∀ bs, r = .put bs → exec i s = .next
        ((((s1.writeOut true part agent clk ps bs).chargeNet part n).epLearns peer clk).send [.rma peer true []])) ∧
      (r = .get n → exec i s = .next (((s1.readOut true part agent clk ps).1.epLearns peer clk).send
        [.rma peer true (s1.readOut true part agent clk ps).2])) ∧
      ∀ op wide o c w, r = .atomic op wide o c → s1.walk (s1.rootOf part) addr.toNat = some w →
        let s2 := ps.foldl (fun s p => s.sampleNet true part p 2 w.pa) (s1.raiseHeat w.leafAt true)
        let x := s2.rmaStep agent clk ⟨0, w.pa⟩ op wide o c
        exec i s = .next (((x.1.chargeNet part n).epLearns peer clk).send [.rma peer true x.2]))) ∧
  (∀ (s : State) (agent : Nat) (clk : Clock) (pa : Nat) (op : RmaOp) (wide : Bool) (o c : DWord),
    let n := if wide then 8 else 4
    let x := s.rmaStep agent clk ⟨0, pa⟩ op wide o c
    x.2 = (s.readFor agent clk n ⟨0, pa⟩ n).2 ∧
    (Memory.wf s.mem = true → s.sameOutside x.1 ⟨0, pa⟩ n ∧
      ∀ v, rmaCombine op (leDWord x.2) (rmaOperand wide o) (rmaOperand wide c) = some v →
        x.1.bytesAt ⟨0, pa⟩ n = leBytes n v.toNat)) ∧
  (∀ (s : State) (net : Bool) (part agent : Nat) (clk : Clock) (p : Piece) (bs : List Byte) (w : Walk),
    Memory.wf s.mem = true → s.walk (s.rootOf part) p.addr.toNat = some w → bs.length = p.size →
    (s.writeOut net part agent clk [p] bs).bytesAt ⟨0, w.pa⟩ p.size = bs) ∧
  (∀ (s : State) (ep peer : Nat) (addr : DWord) (i : Instr) (r : RmaReq), i = (match r with
      | .put _ => Instr.rmaPut
      | .get _ => .rmaGet
      | .atomic _ _ _ _ => .rmaAtomic) →
    s.input = .rma ep peer addr r → s.nym.sill = .running → ep ≠ 0 → s.endpointPart ep = none →
    ∃ s' : State, ∃ port : Nat, exec i s = .next s' ∧ port < 8 ∧ s'.nym.out = s.nym.out ∧ s'.mem = s.mem ∧
      s'.nym.portErrors = countUp s.nym.portErrors port 1)

/-- R28, R29, R30: a start of the device off raises the boot count. When each step's last event of the previous
start judges it sound, a slot of each firmware image qualifies and each step completes, every step in order
has a start and an end record, and Nymesque runs, with the floor raised to the greatest number of the slots
that booted.

R30, R31, R32, R33: a step whose last event was a start or a failure runs its alternate procedure, whose
completion lowers it, is skipped and lowered when it is optional, or else leads to recovery; so does a
failure without alternate. A slot qualifies with a verified signature and a rollback number at the floor or
above; of two the greater number boots, then the later write.

R32: in recovery the board controller can read the journal, write a firmware image to the inactive slot and
order a reset; out of recovery none of the three has an effect. No Ethernet request or RMA operation has an
effect while Nymesque does not run.

Where it rests on a choice of the model and not on a rule, the choice is log entries 5, 6, 7, 8, 67 and 72. -/
def Obligations.BootAndRecovery : Prop :=
  ((∀ (s : State) (rs : List BootResult), s.nym.sill = .off → s.input = .boot rs → exec .boot s = .next (s.boot rs)) ∧
  (∀ s : State, s.nym.sill ≠ .off → exec .boot s = .next s) ∧
  (∀ s : State, (∀ n, 1 ≤ n → n ≤ 12 →
      { s.nym with boots := s.nym.boots + 1 }.lastEvent n ∈ [none, some 1, some 3, some 5]) →
    (∀ x ∈ s.nym.fw, (x.choose s.nym.floor).isSome = true) →
    let s' := s.boot []
    s'.nym.sill = .running ∧ s'.nym.boots = s.nym.boots + 1 ∧ s'.nym.out = s.nym.out ++ [.ready] ∧
    s'.nym.lowered = [] ∧ 1 ≤ s'.nym.halfLife ∧ s'.nym.halfLife ≤ 3600 ∧
    s'.nym.fw = s.nym.fw.map (fun x => { x with bootedB := (x.choose s.nym.floor).getD false }) ∧
    s.nym.floor ≤ s'.nym.floor ∧ (∀ x ∈ s'.nym.fw, x.booted.image.rollback.toNat ≤ s'.nym.floor) ∧
    (s'.nym.floor = s.nym.floor ∨ ∃ x ∈ s'.nym.fw, s'.nym.floor = x.booted.image.rollback.toNat) ∧
    ∃ new : List Journal, s'.nym.journal = s.nym.journal ++ new ∧ (∀ j ∈ new, j.start = s.nym.boots + 1) ∧
      new.map (fun j => (j.step, j.event)) = (List.range 12).flatMap fun k => [(k + 1, 0), (k + 1, 1)])) ∧
  ((∀ (s : State) (n : Nat) (r : BootResult), n = 6 →
    s.nym.lastEvent n ∈ [some 0, some 2, some 4, some 6] →
    ∃ s' : State, s.bootStep n r = (s', .next) ∧ s'.nym.lowered = s.nym.lowered ++ [n] ∧
      ∃ j : Journal, s'.nym.journal = s.nym.journal ++ [j] ∧ (j.step, j.event) = (n, 3)) ∧
  (∀ (s : State) (n : Nat) (r : BootResult), n ∈ [2, 3, 4, 5, 8, 10] →
    s.nym.lastEvent n ∈ [some 0, some 2] →
    (r = .completed → ∃ s' : State, s.bootStep n r = (s', .next) ∧ s'.nym.lowered = s.nym.lowered ++ [n]) ∧
    (r ≠ .completed → ∃ s' : State, s.bootStep n r = (s', .ended) ∧ s'.nym.lowered = s.nym.lowered)) ∧
  (∀ (s : State) (n : Nat) (r : BootResult), n ≠ 6 → n ∉ [2, 3, 4, 5, 8, 10] →
    s.nym.lastEvent n ∈ [some 0, some 2, some 4, some 6] → s.bootStep n r = (s, .recovery)) ∧
  (∀ (s : State) (n : Nat) (r : BootResult), n ∈ [2, 3, 4, 5, 8, 10] → s.nym.lastEvent n ∈ [some 4, some 6] →
    s.bootStep n r = (s, .recovery)) ∧
  (∀ (s : State) (n : Nat) (d : BitVec 16), n ≠ 6 → n ∉ [2, 3, 4, 5, 8, 10] → n ≠ 1 →
    s.nym.lastEvent n ∈ [none, some 1, some 3, some 5] → ∃ s' : State, s.bootStep n (.failed d) = (s', .recovery) ∧
      (s'.nym.journal.getLast?.map fun j => (j.step, j.event, j.detail)) = some (n, 2, d)) ∧
  (∀ (x : FwSlot) (floor : Nat), x.qualifies floor = true ↔ floor ≤ x.image.rollback.toNat ∧
    Config.verify Config.firmwareKey (Config.sha256 x.image.body) x.image.signature = true) ∧
  (∀ (x : FwPair) (floor : Nat), x.choose floor = none ↔ (x.a.qualifies floor = false ∧ x.b.qualifies floor = false)) ∧
  (∀ (x : FwPair) (floor : Nat), x.a.qualifies floor = true → x.b.qualifies floor = true →
    (x.a.image.rollback.toNat < x.b.image.rollback.toNat → x.choose floor = some true) ∧
    (x.b.image.rollback.toNat < x.a.image.rollback.toNat → x.choose floor = some false) ∧
    (x.a.image.rollback = x.b.image.rollback →
      x.choose floor = some (decide (x.a.writeSeq.toNat < x.b.writeSeq.toNat))))) ∧
  (∀ s : State,
    (s.nym.sill = .recovery →
      exec .i3cJournalRead s = .next (s.send [.journal s.nym.journal]) ∧
      (∀ i x, s.input = .image i → s.nym.pair? i.id = some x →
        ∃ s' : State, ∃ y : FwPair, exec .i3cFirmwareWrite s = .next s' ∧ s'.mem = s.mem ∧ s'.nym.pair? i.id = some y ∧
          if x.bootedB then y.a.image = i ∧ y.b = x.b else y.b.image = i ∧ y.a = x.a) ∧
      ∃ s' : State, exec .i3cReset s = .next s' ∧ s'.nym.sill = .off ∧ s'.nym.journal = s.nym.journal ∧
        s'.nym.fw = s.nym.fw.map (fun x => { x with bootedB := false }) ∧ s'.threads = []) ∧
    (s.nym.sill ≠ .recovery → exec .i3cJournalRead s = .next s ∧ exec .i3cFirmwareWrite s = .next s ∧
      exec .i3cReset s = .next s) ∧
    (s.nym.sill ≠ .running → ∀ i ∈ [Instr.load, .patch, .unload, .launch, .cancel, .usage, .attest, .status, .jsig,
      .move, .partcfg, .acctcfg, .fwupd, .unknownRequest, .droppedPacket, .rmaPut, .rmaGet, .rmaAtomic],
      exec i s = .next s))
end

