-- ==== Sys2Proof/Laws/Maps.lean ====
section
/-! SUPPORT. Maps and memories: reads after writes, the canonical form that every operation keeps, and that
equal contents are equal data. -/
namespace Sys2Proof.Machine

open Sys2Proof

section
variable {w : Nat}

/-! ## The canonical form -/

theorem Map.wfFrom_mono {m : Map w} {a b : Nat} (h : m.wfFrom b = true) (hab : a ≤ b) : m.wfFrom a = true := by
  cases m with
  | nil => rfl
  | cons x rest =>
    simp only [Map.wfFrom, Bool.and_eq_true, decide_eq_true_eq] at h ⊢
    exact ⟨⟨Nat.le_trans hab h.1.1, h.1.2⟩, h.2⟩

theorem Map.wf_of_wfFrom {m : Map w} {b : Nat} (h : m.wfFrom b = true) : m.wf = true :=
  Map.wfFrom_mono h (Nat.zero_le b)

@[simp] theorem Map.wf_nil : Map.wf ([] : Map w) = true := rfl

/-- Nothing is listed below the bound. -/
theorem Map.get_eq_zero_of_lt {m : Map w} {b k : Nat} (h : m.wfFrom b = true) (hk : k < b) : m.get k = 0 := by
  induction m generalizing b with
  | nil => rfl
  | cons x rest ih =>
    simp only [Map.wfFrom, Bool.and_eq_true, decide_eq_true_eq] at h
    have hne : x.1 ≠ k := by omega
    simp only [Map.get, if_neg hne]
    exact ih h.2 (by omega)

theorem Map.set_wfFrom {m : Map w} {b k : Nat} (v : BitVec w) (h : m.wfFrom b = true) (hk : b ≤ k) :
    (m.set k v).wfFrom b = true := by
  induction m generalizing b with
  | nil =>
    by_cases hv : v = 0#w <;> simp [Map.set, Map.wfFrom, hv, hk]
  | cons x rest ih =>
    obtain ⟨a, y⟩ := x
    have h' := h
    simp only [Map.wfFrom, Bool.and_eq_true, decide_eq_true_eq, bne_iff_ne] at h
    simp only [Map.set]
    split
    · subst_vars
      split
      · exact Map.wfFrom_mono h.2 (by omega)
      · rename_i hv
        have hv' : ¬v = 0#w := hv
        simp [Map.wfFrom, hv', h.2, hk]
    · split
      · rename_i hlt
        have hy : ¬y = 0#w := h.1.2
        simp [Map.wfFrom, h.1.1, hy, ih h.2 hlt]
      · split
        · exact h'
        · rename_i _ hlt hv
          have hka : k + 1 ≤ a := by omega
          have hv' : ¬v = 0#w := hv
          have hy : ¬y = 0#w := h.1.2
          simp [Map.wfFrom, hk, hv', hka, hy, h.2]

/-- A write keeps the canonical form. -/
theorem Map.set_wf {m : Map w} (k : Nat) (v : BitVec w) (h : m.wf = true) : (m.set k v).wf = true :=
  Map.set_wfFrom v h (Nat.zero_le k)

theorem Map.get_set_from {m : Map w} {b : Nat} (k j : Nat) (v : BitVec w) (h : m.wfFrom b = true) :
    (m.set k v).get j = if k = j then v else m.get j := by
  induction m generalizing b with
  | nil =>
    by_cases hv : v = 0#w
    · simp [Map.set, Map.get, hv]
    · simp [Map.set, Map.get, hv]
  | cons x rest ih =>
    obtain ⟨a, y⟩ := x
    simp only [Map.wfFrom, Bool.and_eq_true, decide_eq_true_eq] at h
    simp only [Map.set]
    by_cases hak : a = k
    · subst hak
      by_cases hv : v = 0#w
      · by_cases haj : a = j
        · subst haj
          simp [hv, Map.get_eq_zero_of_lt h.2 (Nat.lt_succ_self a)]
        · simp [hv, Map.get, haj]
      · by_cases haj : a = j <;> simp [hv, Map.get, haj]
    · by_cases hlt : a < k
      · by_cases haj : a = j
        · have : k ≠ j := by omega
          simp only [if_neg hak, if_pos hlt, Map.get, if_pos haj, if_neg this]
        · simp [hak, hlt, Map.get, haj, ih h.2]
      · by_cases hkj : k = j
        · subst hkj
          by_cases hv : v = 0#w
          · have : Map.get rest k = 0 := Map.get_eq_zero_of_lt h.2 (by omega)
            simp [hak, hlt, hv, Map.get, this]
          · simp [hak, hlt, hv, Map.get]
        · by_cases hv : v = 0#w <;> simp [hak, hlt, hv, hkj, Map.get]

/-- A read after a write: the value written at its key, and every other key as before. -/
theorem Map.get_set {m : Map w} (k j : Nat) (v : BitVec w) (h : m.wf = true) :
    (m.set k v).get j = if k = j then v else m.get j := Map.get_set_from k j v h

theorem Map.eq_of_get_from {m n : Map w} {b : Nat} (hm : m.wfFrom b = true) (hn : n.wfFrom b = true)
    (h : ∀ k, m.get k = n.get k) : m = n := by
  induction m generalizing n b with
  | nil =>
    cases n with
    | nil => rfl
    | cons y rest =>
      simp only [Map.wfFrom, Bool.and_eq_true, bne_iff_ne] at hn
      have := h y.1
      simp [Map.get] at this
      exact absurd this.symm hn.1.2
  | cons x rest ih =>
    obtain ⟨a, u⟩ := x
    cases n with
    | nil =>
      simp only [Map.wfFrom, Bool.and_eq_true, bne_iff_ne] at hm
      have := h a
      simp [Map.get] at this
      exact absurd this hm.1.2
    | cons y rest' =>
      obtain ⟨c, v⟩ := y
      simp only [Map.wfFrom, Bool.and_eq_true, decide_eq_true_eq, bne_iff_ne] at hm hn
      have hac : a = c := by
        rcases Nat.lt_trichotomy a c with hlt | heq | hgt
        · have h1 := h a
          have hz : Map.get rest' a = 0 := Map.get_eq_zero_of_lt hn.2 (by omega)
          have hne : c ≠ a := by omega
          simp [Map.get, hne, hz] at h1
          exact absurd h1 hm.1.2
        · exact heq
        · have h1 := h c
          have hz : Map.get rest c = 0 := Map.get_eq_zero_of_lt hm.2 (by omega)
          have hne : a ≠ c := by omega
          simp [Map.get, hne, hz] at h1
          exact absurd h1.symm hn.1.2
      subst hac
      have huv : u = v := by simpa [Map.get] using h a
      subst huv
      have hrest : ∀ k, Map.get rest k = Map.get rest' k := by
        intro k
        by_cases hk : a = k
        · subst hk
          rw [Map.get_eq_zero_of_lt hm.2 (Nat.lt_succ_self a), Map.get_eq_zero_of_lt hn.2 (Nat.lt_succ_self a)]
        · simpa [Map.get, hk] using h k
      rw [ih hm.2 hn.2 hrest]

/-- Canonical maps with the same values are the same data. -/
theorem Map.eq_of_get {m n : Map w} (hm : m.wf = true) (hn : n.wf = true) (h : ∀ k, m.get k = n.get k) : m = n :=
  Map.eq_of_get_from hm hn h

theorem Map.filter_wfFrom {m : Map w} {b : Nat} (p : Nat × BitVec w → Bool) (h : m.wfFrom b = true) :
    Map.wfFrom (m.filter p) b = true := by
  induction m generalizing b with
  | nil => rfl
  | cons x rest ih =>
    simp only [Map.wfFrom, Bool.and_eq_true, decide_eq_true_eq] at h
    simp only [List.filter]
    split
    · have hy : ¬x.2 = 0#w := bne_iff_ne.mp h.1.2
      simp [Map.wfFrom, h.1.1, hy, ih h.2]
    · exact Map.wfFrom_mono (ih h.2) (by omega)

/-- Dropping entries keeps the canonical form. -/
theorem Map.filter_wf {m : Map w} (p : Nat × BitVec w → Bool) (h : m.wf = true) : Map.wf (m.filter p) = true :=
  Map.filter_wfFrom p h

/-- Clearing an extent keeps the canonical form. -/
theorem Map.clear_wf {m : Map w} (base n : Nat) (h : m.wf = true) : (m.clear base n).wf = true := Map.filter_wf _ h

/-- Writes one after another keep the canonical form. -/
theorem Map.foldl_set_wf {α : Type} (l : List α) (key : α → Nat) (val : Map w → α → BitVec w) {m : Map w}
    (h : m.wf = true) : Map.wf (l.foldl (fun a x => Map.set a (key x) (val a x)) m) = true := by
  induction l generalizing m with
  | nil => exact h
  | cons x rest ih => exact ih (Map.set_wf _ _ h)

end

/-- Writing bytes keeps the canonical form. -/
theorem Map.putBytes_wf {m : Map 8} (a : Nat) (bs : List Byte) (h : m.wf = true) : (m.putBytes a bs).wf = true := by
  induction bs generalizing m a with
  | nil => exact h
  | cons b rest ih => exact ih (a + 1) (Map.set_wf a b h)

/-! ## Memories -/

@[simp] theorem Memory.wf_nil : Memory.wf [] = true := rfl
@[simp] theorem Memory.byte_nil (a : Nat) : Memory.byte [] a = 0 := rfl

/-- A memory write keeps the canonical form. -/
theorem Memory.put_wf {m : Memory} (a : Nat) (bs : List Byte) (h : m.wf = true) : (m.put a bs).wf = true := by
  induction bs generalizing m a with
  | nil => exact h
  | cons b rest ih => exact ih (a + 1) (Map.set_wf (w := 8) a b h)

/-- A byte read after a write: the byte written inside the bytes written, and every other byte as before. -/
theorem Memory.byte_put {m : Memory} (a : Nat) (bs : List Byte) (x : Nat) (h : m.wf = true) :
    (m.put a bs).byte x = if a ≤ x ∧ x < a + bs.length then bs.getD (x - a) 0 else m.byte x := by
  induction bs generalizing m a with
  | nil =>
    have : ¬(a ≤ x ∧ x < a + 0) := by omega
    simp only [List.length_nil, if_neg this, Memory.put]
  | cons b rest ih =>
    have hset : Memory.byte (Map.set (w := 8) m a b) x = if a = x then b else m.byte x := Map.get_set a x b h
    simp only [Memory.put, ih (a + 1) (Map.set_wf (w := 8) a b h), hset, List.length_cons]
    rcases Nat.lt_trichotomy x a with hlt | heq | hgt
    · rw [if_neg (by omega), if_neg (by omega), if_neg (by omega)]
    · subst heq
      rw [if_neg (by omega), if_pos rfl, if_pos (by omega)]
      simp
    · by_cases hin : x < a + (rest.length + 1)
      · rw [if_pos (by omega), if_pos (by omega), show x - a = (x - (a + 1)) + 1 by omega, List.getD_cons_succ]
      · rw [if_neg (by omega), if_neg (by omega), if_neg (by omega)]

/-- Canonical memories with the same bytes are the same data. -/
theorem Memory.eq_of_byte {m n : Memory} (hm : m.wf = true) (hn : n.wf = true) (h : ∀ a, m.byte a = n.byte a) :
    m = n := Map.eq_of_get (w := 8) hm hn h

/-- Writes of images one after another keep the canonical form. -/
theorem Memory.foldl_put_wf {α : Type} (l : List α) (at? : α → Nat) (bs : α → List Byte) {m : Memory} (h : m.wf = true) :
    Memory.wf (l.foldl (fun mem i => mem.put (at? i) (bs i)) m) = true := by
  induction l generalizing m with
  | nil => exact h
  | cons x rest ih => exact ih (Memory.put_wf _ _ h)

/-- A frame that moves keeps the canonical form. -/
theorem moveBytes_wf {m : Memory} (old new : Nat) (h : m.wf = true) : (moveBytes m old new).wf = true :=
  Map.foldl_set_wf (w := 8) _ _ _ (Map.filter_wf (w := 8) _ h)

/-- A function's scratch image is canonical. -/
theorem imageOf_wf (s : State) (m : Member) : Memory.wf (s.imageOf m) = true := by
  unfold State.imageOf
  split
  · rfl
  · exact Memory.foldl_put_wf _ _ _ rfl

/-! ## Accumulator slots and cells -/

theorem slotFrom_wf {accs : Map 32} (n : Nat) (cells : Map 32) (h : accs.wf = true) : (slotFrom accs n cells).wf = true :=
  Map.foldl_set_wf _ _ _ (Map.clear_wf _ _ h)

theorem mmaCells_wf (m : Member) (c : Core) (x y px py : TileCfg) (rows : BitVec 64) (h : Map.wf c.cells = true) :
    Map.wf (mmaCells m c x y px py rows) = true :=
  Map.foldl_set_wf _ _ _ h

/-- The memory after reset is canonical. -/
theorem reset_mem_wf : Memory.wf State.reset.mem = true := rfl

/-! ## Bytes and numbers -/

@[simp] theorem leBytes_length (n x : Nat) : (leBytes n x).length = n := by
  induction n generalizing x with
  | zero => rfl
  | succ n ih => simp [leBytes, ih]

/-- A number is read back from its little-endian bytes. -/
theorem leNat_leBytes (n x : Nat) : leNat (leBytes n x) = x % 256 ^ n := by
  induction n generalizing x with
  | zero => simp [leBytes, leNat, Nat.mod_one]
  | succ n ih =>
    simp only [leBytes, leNat, ih, BitVec.toNat_ofNat]
    rw [show (2 : Nat) ^ 8 = 256 from rfl, Nat.pow_succ, Nat.mul_comm (256 ^ n) 256, Nat.mod_mul]

@[simp] theorem Memory.bytes_length (m : Memory) (a n : Nat) : (m.bytes a n).length = n := by simp [Memory.bytes]

/-! ## Lists of pairs and clocks -/

theorem assoc_cons {α : Type} (x : Nat × α) (l : List (Nat × α)) (j : Nat) :
    assoc (x :: l) j = if x.1 = j then some x.2 else assoc l j := by
  by_cases h : x.1 = j <;> simp [assoc, List.find?_cons, h]

/-- The value of a key that is there is replaced, and the other keys keep theirs. -/
theorem assoc_updateIf {α : Type} (l : List (Nat × α)) (k j : Nat) (v : α) (h : (l.any fun x => x.1 == k) = true) :
    assoc (updateIf l (fun x => x.1 == k) fun _ => (k, v)) j = if j = k then some v else assoc l j := by
  have other (l : List (Nat × α)) (hj : j ≠ k) :
      assoc (updateIf l (fun x => x.1 == k) fun _ => (k, v)) j = assoc l j := by
    induction l with
    | nil => rfl
    | cons x l ih =>
      simp only [updateIf, List.map_cons, assoc_cons, beq_iff_eq] at ih ⊢
      by_cases hx : x.1 = k
      · simp [hx, hj.symm, ih]
      · simp [hx, ih]
  by_cases hj : j = k
  · subst hj
    rw [if_pos rfl]
    induction l with
    | nil => simp at h
    | cons x l ih =>
      simp only [updateIf, List.map_cons, assoc_cons, List.any_cons, Bool.or_eq_true] at ih h ⊢
      by_cases hx : x.1 = j
      · simp [hx]
      · simpa [hx] using ih (by simpa [hx] using h)
  · rw [if_neg hj, other l hj]

/-- A value that is set is read back, and the other keys keep theirs. -/
theorem assoc_assocSet {α : Type} (l : List (Nat × α)) (k j : Nat) (v : α) :
    assoc (assocSet l k v) j = if j = k then some v else assoc l j := by
  unfold assocSet upsert
  split
  · exact assoc_updateIf l k j v ‹_›
  · rename_i h
    have hk : assoc l k = none := by
      simp only [assoc, Option.map_eq_none_iff, List.find?_eq_none]
      exact fun x hx hc => h (List.any_eq_true.mpr ⟨x, hx, hc⟩)
    have : ∀ l : List (Nat × α), assoc (l ++ [(k, v)]) j = (assoc l j).or (if j = k then some v else none) := by
      intro l
      induction l with
      | nil => by_cases hj : k = j <;> simp [assoc, hj, Ne.symm]
      | cons x l ih =>
        rw [List.cons_append, assoc_cons, assoc_cons, ih]
        split <;> rfl
    rw [this]
    by_cases hj : j = k
    · simp [hj, hk]
    · simp [hj]

/-- A clock that is raised knows no less of any agent. -/
theorem Clock.get_le_raise (c : Clock) (a e b : Nat) : Clock.get c b ≤ Clock.get (Clock.raise c a e) b := by
  unfold Clock.raise
  split
  · rename_i h
    by_cases hb : b = a
    · subst hb
      simp only [Clock.get, assoc_assocSet, if_true, Option.getD_some] at h ⊢
      omega
    · simp [Clock.get, assoc_assocSet, hb]
  · exact Nat.le_refl _

/-- A joined clock knows no less of any agent than the first. -/
theorem Clock.get_le_join (c d : Clock) (b : Nat) : Clock.get c b ≤ Clock.get (Clock.join c d) b := by
  unfold Clock.join
  induction d generalizing c with
  | nil => exact Nat.le_refl _
  | cons x d ih => exact Nat.le_trans (c.get_le_raise x.1 x.2 b) (ih _)

/-- A read that does not race does not race either when more happens before it. -/
theorem Shadow.read_join {h : Shadow} {agent z : Nat} {clk : Clock} (c : Clock) (hr : (h.read agent clk z).2 = false) :
    (h.read agent (Clock.join clk c) z).2 = false := by
  simp only [Shadow.read, Bool.or_eq_false_iff] at hr ⊢
  refine ⟨⟨hr.1.1, List.any_eq_false.mpr fun a ha hc => List.any_eq_false.mp hr.1.2 a ha ?_⟩, hr.2⟩
  have hle := clk.get_le_join c a.1
  revert hc
  simp only [races, orderedBefore, Bool.and_eq_true, Bool.not_eq_true', Bool.or_eq_false_iff, decide_eq_false_iff_not]
  exact fun ⟨h1, h2, h3⟩ => ⟨h1, fun h4 => h2 (Nat.le_trans h4 hle), h3⟩

end Sys2Proof.Machine
end

