-- ==== Sys2Proof/Laws/State.lean ====
section
/-! SUPPORT. What the single-unit updates of Ops leave alone: one lemma per field of State per update, so
that no later proof unfolds a record update. -/
namespace Sys2Proof.Machine

section
variable (s : State) (u : Nat) (f : Thread → Thread)

@[simp] theorem State.modThread_clock : (s.modThread u f).clock = s.clock := rfl
@[simp] theorem State.modThread_fresh : (s.modThread u f).fresh = s.fresh := rfl
@[simp] theorem State.modThread_nextId : (s.modThread u f).nextId = s.nextId := rfl
@[simp] theorem State.modThread_agenda : (s.modThread u f).agenda = s.agenda := rfl
@[simp] theorem State.modThread_cur : (s.modThread u f).cur = s.cur := rfl
@[simp] theorem State.modThread_input : (s.modThread u f).input = s.input := rfl
@[simp] theorem State.modThread_mem : (s.modThread u f).mem = s.mem := rfl
@[simp] theorem State.modThread_poison : (s.modThread u f).poison = s.poison := rfl
@[simp] theorem State.modThread_broken : (s.modThread u f).broken = s.broken := rfl
@[simp] theorem State.modThread_nextFrame : (s.modThread u f).nextFrame = s.nextFrame := rfl
@[simp] theorem State.modThread_faults : (s.modThread u f).faults = s.faults := rfl
@[simp] theorem State.modThread_nym : (s.modThread u f).nym = s.nym := rfl
@[simp] theorem State.modThread_parts : (s.modThread u f).parts = s.parts := rfl
@[simp] theorem State.modThread_accts : (s.modThread u f).accts = s.accts := rfl
@[simp] theorem State.modThread_containers : (s.modThread u f).containers = s.containers := rfl
@[simp] theorem State.modThread_queue : (s.modThread u f).queue = s.queue := rfl
@[simp] theorem State.modThread_members : (s.modThread u f).members = s.members := rfl
@[simp] theorem State.modThread_crews : (s.modThread u f).crews = s.crews := rfl
@[simp] theorem State.modThread_frames : (s.modThread u f).frames = s.frames := rfl
@[simp] theorem State.modThread_cores : (s.modThread u f).cores = s.cores := rfl
@[simp] theorem State.modThread_flights : (s.modThread u f).flights = s.flights := rfl
@[simp] theorem State.modThread_copies : (s.modThread u f).copies = s.copies := rfl
@[simp] theorem State.modThread_arrivals : (s.modThread u f).arrivals = s.arrivals := rfl
@[simp] theorem State.modThread_decs : (s.modThread u f).decs = s.decs := rfl
@[simp] theorem State.modThread_subs : (s.modThread u f).subs = s.subs := rfl
@[simp] theorem State.modThread_counters : (s.modThread u f).counters = s.counters := rfl
@[simp] theorem State.modThread_counterGens : (s.modThread u f).counterGens = s.counterGens := rfl
@[simp] theorem State.modThread_underflows : (s.modThread u f).underflows = s.underflows := rfl
@[simp] theorem State.modThread_tags : (s.modThread u f).tags = s.tags := rfl
@[simp] theorem State.modThread_tagHolds : (s.modThread u f).tagHolds = s.tagHolds := rfl
@[simp] theorem State.modThread_tagArrivals : (s.modThread u f).tagArrivals = s.tagArrivals := rfl
@[simp] theorem State.modThread_adverts : (s.modThread u f).adverts = s.adverts := rfl
@[simp] theorem State.modThread_moves : (s.modThread u f).moves = s.moves := rfl
@[simp] theorem State.modThread_marks : (s.modThread u f).marks = s.marks := rfl
@[simp] theorem State.modThread_cancels : (s.modThread u f).cancels = s.cancels := rfl
@[simp] theorem State.modThread_advertAt : (s.modThread u f).advertAt = s.advertAt := rfl
@[simp] theorem State.modThread_usageAt : (s.modThread u f).usageAt = s.usageAt := rfl
@[simp] theorem State.modThread_barClks : (s.modThread u f).barClks = s.barClks := rfl
@[simp] theorem State.modThread_releases : (s.modThread u f).releases = s.releases := rfl
@[simp] theorem State.modThread_shadow : (s.modThread u f).shadow = s.shadow := rfl
@[simp] theorem State.modThread_member? (k : Nat) : (s.modThread u f).member? k = s.member? k := rfl
@[simp] theorem State.modThread_crew? (k : Nat) : (s.modThread u f).crew? k = s.crew? k := rfl
@[simp] theorem State.modThread_frame? (k : Nat) : (s.modThread u f).frame? k = s.frame? k := rfl
@[simp] theorem State.modThread_part? (k : Nat) : (s.modThread u f).part? k = s.part? k := rfl
@[simp] theorem State.modThread_acct? (k : Nat) : (s.modThread u f).acct? k = s.acct? k := rfl
@[simp] theorem State.modThread_core (k : Nat) : (s.modThread u f).core k = s.core k := rfl

end

section
variable (s : State) (m : Nat) (f : Member → Member)

@[simp] theorem State.modMember_clock : (s.modMember m f).clock = s.clock := rfl
@[simp] theorem State.modMember_fresh : (s.modMember m f).fresh = s.fresh := rfl
@[simp] theorem State.modMember_nextId : (s.modMember m f).nextId = s.nextId := rfl
@[simp] theorem State.modMember_agenda : (s.modMember m f).agenda = s.agenda := rfl
@[simp] theorem State.modMember_cur : (s.modMember m f).cur = s.cur := rfl
@[simp] theorem State.modMember_input : (s.modMember m f).input = s.input := rfl
@[simp] theorem State.modMember_mem : (s.modMember m f).mem = s.mem := rfl
@[simp] theorem State.modMember_poison : (s.modMember m f).poison = s.poison := rfl
@[simp] theorem State.modMember_broken : (s.modMember m f).broken = s.broken := rfl
@[simp] theorem State.modMember_nextFrame : (s.modMember m f).nextFrame = s.nextFrame := rfl
@[simp] theorem State.modMember_faults : (s.modMember m f).faults = s.faults := rfl
@[simp] theorem State.modMember_nym : (s.modMember m f).nym = s.nym := rfl
@[simp] theorem State.modMember_parts : (s.modMember m f).parts = s.parts := rfl
@[simp] theorem State.modMember_accts : (s.modMember m f).accts = s.accts := rfl
@[simp] theorem State.modMember_containers : (s.modMember m f).containers = s.containers := rfl
@[simp] theorem State.modMember_queue : (s.modMember m f).queue = s.queue := rfl
@[simp] theorem State.modMember_crews : (s.modMember m f).crews = s.crews := rfl
@[simp] theorem State.modMember_threads : (s.modMember m f).threads = s.threads := rfl
@[simp] theorem State.modMember_frames : (s.modMember m f).frames = s.frames := rfl
@[simp] theorem State.modMember_cores : (s.modMember m f).cores = s.cores := rfl
@[simp] theorem State.modMember_flights : (s.modMember m f).flights = s.flights := rfl
@[simp] theorem State.modMember_copies : (s.modMember m f).copies = s.copies := rfl
@[simp] theorem State.modMember_arrivals : (s.modMember m f).arrivals = s.arrivals := rfl
@[simp] theorem State.modMember_decs : (s.modMember m f).decs = s.decs := rfl
@[simp] theorem State.modMember_subs : (s.modMember m f).subs = s.subs := rfl
@[simp] theorem State.modMember_counters : (s.modMember m f).counters = s.counters := rfl
@[simp] theorem State.modMember_counterGens : (s.modMember m f).counterGens = s.counterGens := rfl
@[simp] theorem State.modMember_underflows : (s.modMember m f).underflows = s.underflows := rfl
@[simp] theorem State.modMember_tags : (s.modMember m f).tags = s.tags := rfl
@[simp] theorem State.modMember_tagHolds : (s.modMember m f).tagHolds = s.tagHolds := rfl
@[simp] theorem State.modMember_tagArrivals : (s.modMember m f).tagArrivals = s.tagArrivals := rfl
@[simp] theorem State.modMember_adverts : (s.modMember m f).adverts = s.adverts := rfl
@[simp] theorem State.modMember_moves : (s.modMember m f).moves = s.moves := rfl
@[simp] theorem State.modMember_marks : (s.modMember m f).marks = s.marks := rfl
@[simp] theorem State.modMember_cancels : (s.modMember m f).cancels = s.cancels := rfl
@[simp] theorem State.modMember_advertAt : (s.modMember m f).advertAt = s.advertAt := rfl
@[simp] theorem State.modMember_usageAt : (s.modMember m f).usageAt = s.usageAt := rfl
@[simp] theorem State.modMember_barClks : (s.modMember m f).barClks = s.barClks := rfl
@[simp] theorem State.modMember_releases : (s.modMember m f).releases = s.releases := rfl
@[simp] theorem State.modMember_shadow : (s.modMember m f).shadow = s.shadow := rfl
@[simp] theorem State.modMember_thread? (k : Nat) : (s.modMember m f).thread? k = s.thread? k := rfl
@[simp] theorem State.modMember_crew? (k : Nat) : (s.modMember m f).crew? k = s.crew? k := rfl
@[simp] theorem State.modMember_frame? (k : Nat) : (s.modMember m f).frame? k = s.frame? k := rfl
@[simp] theorem State.modMember_part? (k : Nat) : (s.modMember m f).part? k = s.part? k := rfl
@[simp] theorem State.modMember_acct? (k : Nat) : (s.modMember m f).acct? k = s.acct? k := rfl
@[simp] theorem State.modMember_core (k : Nat) : (s.modMember m f).core k = s.core k := rfl
@[simp] theorem State.modMember_curThread? : (s.modMember m f).curThread? = s.curThread? := rfl

end

section
variable (s : State) (c : Nat) (f : Crew → Crew)

@[simp] theorem State.modCrew_clock : (s.modCrew c f).clock = s.clock := rfl
@[simp] theorem State.modCrew_fresh : (s.modCrew c f).fresh = s.fresh := rfl
@[simp] theorem State.modCrew_nextId : (s.modCrew c f).nextId = s.nextId := rfl
@[simp] theorem State.modCrew_agenda : (s.modCrew c f).agenda = s.agenda := rfl
@[simp] theorem State.modCrew_cur : (s.modCrew c f).cur = s.cur := rfl
@[simp] theorem State.modCrew_input : (s.modCrew c f).input = s.input := rfl
@[simp] theorem State.modCrew_mem : (s.modCrew c f).mem = s.mem := rfl
@[simp] theorem State.modCrew_poison : (s.modCrew c f).poison = s.poison := rfl
@[simp] theorem State.modCrew_broken : (s.modCrew c f).broken = s.broken := rfl
@[simp] theorem State.modCrew_nextFrame : (s.modCrew c f).nextFrame = s.nextFrame := rfl
@[simp] theorem State.modCrew_faults : (s.modCrew c f).faults = s.faults := rfl
@[simp] theorem State.modCrew_nym : (s.modCrew c f).nym = s.nym := rfl
@[simp] theorem State.modCrew_parts : (s.modCrew c f).parts = s.parts := rfl
@[simp] theorem State.modCrew_accts : (s.modCrew c f).accts = s.accts := rfl
@[simp] theorem State.modCrew_containers : (s.modCrew c f).containers = s.containers := rfl
@[simp] theorem State.modCrew_queue : (s.modCrew c f).queue = s.queue := rfl
@[simp] theorem State.modCrew_members : (s.modCrew c f).members = s.members := rfl
@[simp] theorem State.modCrew_threads : (s.modCrew c f).threads = s.threads := rfl
@[simp] theorem State.modCrew_frames : (s.modCrew c f).frames = s.frames := rfl
@[simp] theorem State.modCrew_cores : (s.modCrew c f).cores = s.cores := rfl
@[simp] theorem State.modCrew_flights : (s.modCrew c f).flights = s.flights := rfl
@[simp] theorem State.modCrew_copies : (s.modCrew c f).copies = s.copies := rfl
@[simp] theorem State.modCrew_arrivals : (s.modCrew c f).arrivals = s.arrivals := rfl
@[simp] theorem State.modCrew_decs : (s.modCrew c f).decs = s.decs := rfl
@[simp] theorem State.modCrew_subs : (s.modCrew c f).subs = s.subs := rfl
@[simp] theorem State.modCrew_counters : (s.modCrew c f).counters = s.counters := rfl
@[simp] theorem State.modCrew_counterGens : (s.modCrew c f).counterGens = s.counterGens := rfl
@[simp] theorem State.modCrew_underflows : (s.modCrew c f).underflows = s.underflows := rfl
@[simp] theorem State.modCrew_tags : (s.modCrew c f).tags = s.tags := rfl
@[simp] theorem State.modCrew_tagHolds : (s.modCrew c f).tagHolds = s.tagHolds := rfl
@[simp] theorem State.modCrew_tagArrivals : (s.modCrew c f).tagArrivals = s.tagArrivals := rfl
@[simp] theorem State.modCrew_adverts : (s.modCrew c f).adverts = s.adverts := rfl
@[simp] theorem State.modCrew_moves : (s.modCrew c f).moves = s.moves := rfl
@[simp] theorem State.modCrew_marks : (s.modCrew c f).marks = s.marks := rfl
@[simp] theorem State.modCrew_cancels : (s.modCrew c f).cancels = s.cancels := rfl
@[simp] theorem State.modCrew_advertAt : (s.modCrew c f).advertAt = s.advertAt := rfl
@[simp] theorem State.modCrew_usageAt : (s.modCrew c f).usageAt = s.usageAt := rfl
@[simp] theorem State.modCrew_barClks : (s.modCrew c f).barClks = s.barClks := rfl
@[simp] theorem State.modCrew_releases : (s.modCrew c f).releases = s.releases := rfl
@[simp] theorem State.modCrew_shadow : (s.modCrew c f).shadow = s.shadow := rfl
@[simp] theorem State.modCrew_thread? (k : Nat) : (s.modCrew c f).thread? k = s.thread? k := rfl
@[simp] theorem State.modCrew_member? (k : Nat) : (s.modCrew c f).member? k = s.member? k := rfl
@[simp] theorem State.modCrew_frame? (k : Nat) : (s.modCrew c f).frame? k = s.frame? k := rfl
@[simp] theorem State.modCrew_part? (k : Nat) : (s.modCrew c f).part? k = s.part? k := rfl
@[simp] theorem State.modCrew_acct? (k : Nat) : (s.modCrew c f).acct? k = s.acct? k := rfl
@[simp] theorem State.modCrew_core (k : Nat) : (s.modCrew c f).core k = s.core k := rfl
@[simp] theorem State.modCrew_curThread? : (s.modCrew c f).curThread? = s.curThread? := rfl

end

section
variable (s : State) (n : Nat) (f : Frame → Frame)

@[simp] theorem State.modFrame_clock : (s.modFrame n f).clock = s.clock := rfl
@[simp] theorem State.modFrame_fresh : (s.modFrame n f).fresh = s.fresh := rfl
@[simp] theorem State.modFrame_nextId : (s.modFrame n f).nextId = s.nextId := rfl
@[simp] theorem State.modFrame_agenda : (s.modFrame n f).agenda = s.agenda := rfl
@[simp] theorem State.modFrame_cur : (s.modFrame n f).cur = s.cur := rfl
@[simp] theorem State.modFrame_input : (s.modFrame n f).input = s.input := rfl
@[simp] theorem State.modFrame_mem : (s.modFrame n f).mem = s.mem := rfl
@[simp] theorem State.modFrame_poison : (s.modFrame n f).poison = s.poison := rfl
@[simp] theorem State.modFrame_broken : (s.modFrame n f).broken = s.broken := rfl
@[simp] theorem State.modFrame_nextFrame : (s.modFrame n f).nextFrame = s.nextFrame := rfl
@[simp] theorem State.modFrame_faults : (s.modFrame n f).faults = s.faults := rfl
@[simp] theorem State.modFrame_nym : (s.modFrame n f).nym = s.nym := rfl
@[simp] theorem State.modFrame_parts : (s.modFrame n f).parts = s.parts := rfl
@[simp] theorem State.modFrame_accts : (s.modFrame n f).accts = s.accts := rfl
@[simp] theorem State.modFrame_containers : (s.modFrame n f).containers = s.containers := rfl
@[simp] theorem State.modFrame_queue : (s.modFrame n f).queue = s.queue := rfl
@[simp] theorem State.modFrame_members : (s.modFrame n f).members = s.members := rfl
@[simp] theorem State.modFrame_crews : (s.modFrame n f).crews = s.crews := rfl
@[simp] theorem State.modFrame_threads : (s.modFrame n f).threads = s.threads := rfl
@[simp] theorem State.modFrame_cores : (s.modFrame n f).cores = s.cores := rfl
@[simp] theorem State.modFrame_flights : (s.modFrame n f).flights = s.flights := rfl
@[simp] theorem State.modFrame_copies : (s.modFrame n f).copies = s.copies := rfl
@[simp] theorem State.modFrame_arrivals : (s.modFrame n f).arrivals = s.arrivals := rfl
@[simp] theorem State.modFrame_decs : (s.modFrame n f).decs = s.decs := rfl
@[simp] theorem State.modFrame_subs : (s.modFrame n f).subs = s.subs := rfl
@[simp] theorem State.modFrame_counters : (s.modFrame n f).counters = s.counters := rfl
@[simp] theorem State.modFrame_counterGens : (s.modFrame n f).counterGens = s.counterGens := rfl
@[simp] theorem State.modFrame_underflows : (s.modFrame n f).underflows = s.underflows := rfl
@[simp] theorem State.modFrame_tags : (s.modFrame n f).tags = s.tags := rfl
@[simp] theorem State.modFrame_tagHolds : (s.modFrame n f).tagHolds = s.tagHolds := rfl
@[simp] theorem State.modFrame_tagArrivals : (s.modFrame n f).tagArrivals = s.tagArrivals := rfl
@[simp] theorem State.modFrame_adverts : (s.modFrame n f).adverts = s.adverts := rfl
@[simp] theorem State.modFrame_moves : (s.modFrame n f).moves = s.moves := rfl
@[simp] theorem State.modFrame_marks : (s.modFrame n f).marks = s.marks := rfl
@[simp] theorem State.modFrame_cancels : (s.modFrame n f).cancels = s.cancels := rfl
@[simp] theorem State.modFrame_advertAt : (s.modFrame n f).advertAt = s.advertAt := rfl
@[simp] theorem State.modFrame_usageAt : (s.modFrame n f).usageAt = s.usageAt := rfl
@[simp] theorem State.modFrame_barClks : (s.modFrame n f).barClks = s.barClks := rfl
@[simp] theorem State.modFrame_releases : (s.modFrame n f).releases = s.releases := rfl
@[simp] theorem State.modFrame_shadow : (s.modFrame n f).shadow = s.shadow := rfl
@[simp] theorem State.modFrame_thread? (k : Nat) : (s.modFrame n f).thread? k = s.thread? k := rfl
@[simp] theorem State.modFrame_member? (k : Nat) : (s.modFrame n f).member? k = s.member? k := rfl
@[simp] theorem State.modFrame_crew? (k : Nat) : (s.modFrame n f).crew? k = s.crew? k := rfl
@[simp] theorem State.modFrame_part? (k : Nat) : (s.modFrame n f).part? k = s.part? k := rfl
@[simp] theorem State.modFrame_acct? (k : Nat) : (s.modFrame n f).acct? k = s.acct? k := rfl
@[simp] theorem State.modFrame_core (k : Nat) : (s.modFrame n f).core k = s.core k := rfl
@[simp] theorem State.modFrame_curThread? : (s.modFrame n f).curThread? = s.curThread? := rfl

end

section
variable (s : State) (p : Nat) (f : Partition → Partition)

@[simp] theorem State.modPart_clock : (s.modPart p f).clock = s.clock := rfl
@[simp] theorem State.modPart_fresh : (s.modPart p f).fresh = s.fresh := rfl
@[simp] theorem State.modPart_nextId : (s.modPart p f).nextId = s.nextId := rfl
@[simp] theorem State.modPart_agenda : (s.modPart p f).agenda = s.agenda := rfl
@[simp] theorem State.modPart_cur : (s.modPart p f).cur = s.cur := rfl
@[simp] theorem State.modPart_input : (s.modPart p f).input = s.input := rfl
@[simp] theorem State.modPart_mem : (s.modPart p f).mem = s.mem := rfl
@[simp] theorem State.modPart_poison : (s.modPart p f).poison = s.poison := rfl
@[simp] theorem State.modPart_broken : (s.modPart p f).broken = s.broken := rfl
@[simp] theorem State.modPart_nextFrame : (s.modPart p f).nextFrame = s.nextFrame := rfl
@[simp] theorem State.modPart_faults : (s.modPart p f).faults = s.faults := rfl
@[simp] theorem State.modPart_nym : (s.modPart p f).nym = s.nym := rfl
@[simp] theorem State.modPart_accts : (s.modPart p f).accts = s.accts := rfl
@[simp] theorem State.modPart_containers : (s.modPart p f).containers = s.containers := rfl
@[simp] theorem State.modPart_queue : (s.modPart p f).queue = s.queue := rfl
@[simp] theorem State.modPart_members : (s.modPart p f).members = s.members := rfl
@[simp] theorem State.modPart_crews : (s.modPart p f).crews = s.crews := rfl
@[simp] theorem State.modPart_threads : (s.modPart p f).threads = s.threads := rfl
@[simp] theorem State.modPart_frames : (s.modPart p f).frames = s.frames := rfl
@[simp] theorem State.modPart_cores : (s.modPart p f).cores = s.cores := rfl
@[simp] theorem State.modPart_flights : (s.modPart p f).flights = s.flights := rfl
@[simp] theorem State.modPart_copies : (s.modPart p f).copies = s.copies := rfl
@[simp] theorem State.modPart_arrivals : (s.modPart p f).arrivals = s.arrivals := rfl
@[simp] theorem State.modPart_decs : (s.modPart p f).decs = s.decs := rfl
@[simp] theorem State.modPart_subs : (s.modPart p f).subs = s.subs := rfl
@[simp] theorem State.modPart_counters : (s.modPart p f).counters = s.counters := rfl
@[simp] theorem State.modPart_counterGens : (s.modPart p f).counterGens = s.counterGens := rfl
@[simp] theorem State.modPart_underflows : (s.modPart p f).underflows = s.underflows := rfl
@[simp] theorem State.modPart_tags : (s.modPart p f).tags = s.tags := rfl
@[simp] theorem State.modPart_tagHolds : (s.modPart p f).tagHolds = s.tagHolds := rfl
@[simp] theorem State.modPart_tagArrivals : (s.modPart p f).tagArrivals = s.tagArrivals := rfl
@[simp] theorem State.modPart_adverts : (s.modPart p f).adverts = s.adverts := rfl
@[simp] theorem State.modPart_moves : (s.modPart p f).moves = s.moves := rfl
@[simp] theorem State.modPart_marks : (s.modPart p f).marks = s.marks := rfl
@[simp] theorem State.modPart_cancels : (s.modPart p f).cancels = s.cancels := rfl
@[simp] theorem State.modPart_advertAt : (s.modPart p f).advertAt = s.advertAt := rfl
@[simp] theorem State.modPart_usageAt : (s.modPart p f).usageAt = s.usageAt := rfl
@[simp] theorem State.modPart_barClks : (s.modPart p f).barClks = s.barClks := rfl
@[simp] theorem State.modPart_releases : (s.modPart p f).releases = s.releases := rfl
@[simp] theorem State.modPart_shadow : (s.modPart p f).shadow = s.shadow := rfl
@[simp] theorem State.modPart_thread? (k : Nat) : (s.modPart p f).thread? k = s.thread? k := rfl
@[simp] theorem State.modPart_member? (k : Nat) : (s.modPart p f).member? k = s.member? k := rfl
@[simp] theorem State.modPart_crew? (k : Nat) : (s.modPart p f).crew? k = s.crew? k := rfl
@[simp] theorem State.modPart_frame? (k : Nat) : (s.modPart p f).frame? k = s.frame? k := rfl
@[simp] theorem State.modPart_acct? (k : Nat) : (s.modPart p f).acct? k = s.acct? k := rfl
@[simp] theorem State.modPart_core (k : Nat) : (s.modPart p f).core k = s.core k := rfl
@[simp] theorem State.modPart_curThread? : (s.modPart p f).curThread? = s.curThread? := rfl

end

section
variable (s : State) (a : Nat) (f : Account → Account)

@[simp] theorem State.modAcct_clock : (s.modAcct a f).clock = s.clock := rfl
@[simp] theorem State.modAcct_fresh : (s.modAcct a f).fresh = s.fresh := rfl
@[simp] theorem State.modAcct_nextId : (s.modAcct a f).nextId = s.nextId := rfl
@[simp] theorem State.modAcct_agenda : (s.modAcct a f).agenda = s.agenda := rfl
@[simp] theorem State.modAcct_cur : (s.modAcct a f).cur = s.cur := rfl
@[simp] theorem State.modAcct_input : (s.modAcct a f).input = s.input := rfl
@[simp] theorem State.modAcct_mem : (s.modAcct a f).mem = s.mem := rfl
@[simp] theorem State.modAcct_poison : (s.modAcct a f).poison = s.poison := rfl
@[simp] theorem State.modAcct_broken : (s.modAcct a f).broken = s.broken := rfl
@[simp] theorem State.modAcct_nextFrame : (s.modAcct a f).nextFrame = s.nextFrame := rfl
@[simp] theorem State.modAcct_faults : (s.modAcct a f).faults = s.faults := rfl
@[simp] theorem State.modAcct_nym : (s.modAcct a f).nym = s.nym := rfl
@[simp] theorem State.modAcct_parts : (s.modAcct a f).parts = s.parts := rfl
@[simp] theorem State.modAcct_containers : (s.modAcct a f).containers = s.containers := rfl
@[simp] theorem State.modAcct_queue : (s.modAcct a f).queue = s.queue := rfl
@[simp] theorem State.modAcct_members : (s.modAcct a f).members = s.members := rfl
@[simp] theorem State.modAcct_crews : (s.modAcct a f).crews = s.crews := rfl
@[simp] theorem State.modAcct_threads : (s.modAcct a f).threads = s.threads := rfl
@[simp] theorem State.modAcct_frames : (s.modAcct a f).frames = s.frames := rfl
@[simp] theorem State.modAcct_cores : (s.modAcct a f).cores = s.cores := rfl
@[simp] theorem State.modAcct_flights : (s.modAcct a f).flights = s.flights := rfl
@[simp] theorem State.modAcct_copies : (s.modAcct a f).copies = s.copies := rfl
@[simp] theorem State.modAcct_arrivals : (s.modAcct a f).arrivals = s.arrivals := rfl
@[simp] theorem State.modAcct_decs : (s.modAcct a f).decs = s.decs := rfl
@[simp] theorem State.modAcct_subs : (s.modAcct a f).subs = s.subs := rfl
@[simp] theorem State.modAcct_counters : (s.modAcct a f).counters = s.counters := rfl
@[simp] theorem State.modAcct_counterGens : (s.modAcct a f).counterGens = s.counterGens := rfl
@[simp] theorem State.modAcct_underflows : (s.modAcct a f).underflows = s.underflows := rfl
@[simp] theorem State.modAcct_tags : (s.modAcct a f).tags = s.tags := rfl
@[simp] theorem State.modAcct_tagHolds : (s.modAcct a f).tagHolds = s.tagHolds := rfl
@[simp] theorem State.modAcct_tagArrivals : (s.modAcct a f).tagArrivals = s.tagArrivals := rfl
@[simp] theorem State.modAcct_adverts : (s.modAcct a f).adverts = s.adverts := rfl
@[simp] theorem State.modAcct_moves : (s.modAcct a f).moves = s.moves := rfl
@[simp] theorem State.modAcct_marks : (s.modAcct a f).marks = s.marks := rfl
@[simp] theorem State.modAcct_cancels : (s.modAcct a f).cancels = s.cancels := rfl
@[simp] theorem State.modAcct_advertAt : (s.modAcct a f).advertAt = s.advertAt := rfl
@[simp] theorem State.modAcct_usageAt : (s.modAcct a f).usageAt = s.usageAt := rfl
@[simp] theorem State.modAcct_barClks : (s.modAcct a f).barClks = s.barClks := rfl
@[simp] theorem State.modAcct_releases : (s.modAcct a f).releases = s.releases := rfl
@[simp] theorem State.modAcct_shadow : (s.modAcct a f).shadow = s.shadow := rfl
@[simp] theorem State.modAcct_thread? (k : Nat) : (s.modAcct a f).thread? k = s.thread? k := rfl
@[simp] theorem State.modAcct_member? (k : Nat) : (s.modAcct a f).member? k = s.member? k := rfl
@[simp] theorem State.modAcct_crew? (k : Nat) : (s.modAcct a f).crew? k = s.crew? k := rfl
@[simp] theorem State.modAcct_frame? (k : Nat) : (s.modAcct a f).frame? k = s.frame? k := rfl
@[simp] theorem State.modAcct_part? (k : Nat) : (s.modAcct a f).part? k = s.part? k := rfl
@[simp] theorem State.modAcct_core (k : Nat) : (s.modAcct a f).core k = s.core k := rfl
@[simp] theorem State.modAcct_curThread? : (s.modAcct a f).curThread? = s.curThread? := rfl

end

section
variable (s : State) (c : Nat) (f : Core → Core)

@[simp] theorem State.modCore_clock : (s.modCore c f).clock = s.clock := rfl
@[simp] theorem State.modCore_fresh : (s.modCore c f).fresh = s.fresh := rfl
@[simp] theorem State.modCore_nextId : (s.modCore c f).nextId = s.nextId := rfl
@[simp] theorem State.modCore_agenda : (s.modCore c f).agenda = s.agenda := rfl
@[simp] theorem State.modCore_cur : (s.modCore c f).cur = s.cur := rfl
@[simp] theorem State.modCore_input : (s.modCore c f).input = s.input := rfl
@[simp] theorem State.modCore_mem : (s.modCore c f).mem = s.mem := rfl
@[simp] theorem State.modCore_poison : (s.modCore c f).poison = s.poison := rfl
@[simp] theorem State.modCore_broken : (s.modCore c f).broken = s.broken := rfl
@[simp] theorem State.modCore_nextFrame : (s.modCore c f).nextFrame = s.nextFrame := rfl
@[simp] theorem State.modCore_faults : (s.modCore c f).faults = s.faults := rfl
@[simp] theorem State.modCore_nym : (s.modCore c f).nym = s.nym := rfl
@[simp] theorem State.modCore_parts : (s.modCore c f).parts = s.parts := rfl
@[simp] theorem State.modCore_accts : (s.modCore c f).accts = s.accts := rfl
@[simp] theorem State.modCore_containers : (s.modCore c f).containers = s.containers := rfl
@[simp] theorem State.modCore_queue : (s.modCore c f).queue = s.queue := rfl
@[simp] theorem State.modCore_members : (s.modCore c f).members = s.members := rfl
@[simp] theorem State.modCore_crews : (s.modCore c f).crews = s.crews := rfl
@[simp] theorem State.modCore_threads : (s.modCore c f).threads = s.threads := rfl
@[simp] theorem State.modCore_frames : (s.modCore c f).frames = s.frames := rfl
@[simp] theorem State.modCore_flights : (s.modCore c f).flights = s.flights := rfl
@[simp] theorem State.modCore_copies : (s.modCore c f).copies = s.copies := rfl
@[simp] theorem State.modCore_arrivals : (s.modCore c f).arrivals = s.arrivals := rfl
@[simp] theorem State.modCore_decs : (s.modCore c f).decs = s.decs := rfl
@[simp] theorem State.modCore_subs : (s.modCore c f).subs = s.subs := rfl
@[simp] theorem State.modCore_counters : (s.modCore c f).counters = s.counters := rfl
@[simp] theorem State.modCore_counterGens : (s.modCore c f).counterGens = s.counterGens := rfl
@[simp] theorem State.modCore_underflows : (s.modCore c f).underflows = s.underflows := rfl
@[simp] theorem State.modCore_tags : (s.modCore c f).tags = s.tags := rfl
@[simp] theorem State.modCore_tagHolds : (s.modCore c f).tagHolds = s.tagHolds := rfl
@[simp] theorem State.modCore_tagArrivals : (s.modCore c f).tagArrivals = s.tagArrivals := rfl
@[simp] theorem State.modCore_adverts : (s.modCore c f).adverts = s.adverts := rfl
@[simp] theorem State.modCore_moves : (s.modCore c f).moves = s.moves := rfl
@[simp] theorem State.modCore_marks : (s.modCore c f).marks = s.marks := rfl
@[simp] theorem State.modCore_cancels : (s.modCore c f).cancels = s.cancels := rfl
@[simp] theorem State.modCore_advertAt : (s.modCore c f).advertAt = s.advertAt := rfl
@[simp] theorem State.modCore_usageAt : (s.modCore c f).usageAt = s.usageAt := rfl
@[simp] theorem State.modCore_barClks : (s.modCore c f).barClks = s.barClks := rfl
@[simp] theorem State.modCore_releases : (s.modCore c f).releases = s.releases := rfl
@[simp] theorem State.modCore_shadow : (s.modCore c f).shadow = s.shadow := rfl
@[simp] theorem State.modCore_thread? (k : Nat) : (s.modCore c f).thread? k = s.thread? k := rfl
@[simp] theorem State.modCore_member? (k : Nat) : (s.modCore c f).member? k = s.member? k := rfl
@[simp] theorem State.modCore_crew? (k : Nat) : (s.modCore c f).crew? k = s.crew? k := rfl
@[simp] theorem State.modCore_frame? (k : Nat) : (s.modCore c f).frame? k = s.frame? k := rfl
@[simp] theorem State.modCore_part? (k : Nat) : (s.modCore c f).part? k = s.part? k := rfl
@[simp] theorem State.modCore_acct? (k : Nat) : (s.modCore c f).acct? k = s.acct? k := rfl
@[simp] theorem State.modCore_curThread? : (s.modCore c f).curThread? = s.curThread? := rfl

end

section
variable (s : State) (i : Nat) (f : Flight → Flight)

@[simp] theorem State.modFlight_clock : (s.modFlight i f).clock = s.clock := rfl
@[simp] theorem State.modFlight_fresh : (s.modFlight i f).fresh = s.fresh := rfl
@[simp] theorem State.modFlight_nextId : (s.modFlight i f).nextId = s.nextId := rfl
@[simp] theorem State.modFlight_agenda : (s.modFlight i f).agenda = s.agenda := rfl
@[simp] theorem State.modFlight_cur : (s.modFlight i f).cur = s.cur := rfl
@[simp] theorem State.modFlight_input : (s.modFlight i f).input = s.input := rfl
@[simp] theorem State.modFlight_mem : (s.modFlight i f).mem = s.mem := rfl
@[simp] theorem State.modFlight_poison : (s.modFlight i f).poison = s.poison := rfl
@[simp] theorem State.modFlight_broken : (s.modFlight i f).broken = s.broken := rfl
@[simp] theorem State.modFlight_nextFrame : (s.modFlight i f).nextFrame = s.nextFrame := rfl
@[simp] theorem State.modFlight_faults : (s.modFlight i f).faults = s.faults := rfl
@[simp] theorem State.modFlight_nym : (s.modFlight i f).nym = s.nym := rfl
@[simp] theorem State.modFlight_parts : (s.modFlight i f).parts = s.parts := rfl
@[simp] theorem State.modFlight_accts : (s.modFlight i f).accts = s.accts := rfl
@[simp] theorem State.modFlight_containers : (s.modFlight i f).containers = s.containers := rfl
@[simp] theorem State.modFlight_queue : (s.modFlight i f).queue = s.queue := rfl
@[simp] theorem State.modFlight_members : (s.modFlight i f).members = s.members := rfl
@[simp] theorem State.modFlight_crews : (s.modFlight i f).crews = s.crews := rfl
@[simp] theorem State.modFlight_threads : (s.modFlight i f).threads = s.threads := rfl
@[simp] theorem State.modFlight_frames : (s.modFlight i f).frames = s.frames := rfl
@[simp] theorem State.modFlight_cores : (s.modFlight i f).cores = s.cores := rfl
@[simp] theorem State.modFlight_copies : (s.modFlight i f).copies = s.copies := rfl
@[simp] theorem State.modFlight_arrivals : (s.modFlight i f).arrivals = s.arrivals := rfl
@[simp] theorem State.modFlight_decs : (s.modFlight i f).decs = s.decs := rfl
@[simp] theorem State.modFlight_subs : (s.modFlight i f).subs = s.subs := rfl
@[simp] theorem State.modFlight_counters : (s.modFlight i f).counters = s.counters := rfl
@[simp] theorem State.modFlight_counterGens : (s.modFlight i f).counterGens = s.counterGens := rfl
@[simp] theorem State.modFlight_underflows : (s.modFlight i f).underflows = s.underflows := rfl
@[simp] theorem State.modFlight_tags : (s.modFlight i f).tags = s.tags := rfl
@[simp] theorem State.modFlight_tagHolds : (s.modFlight i f).tagHolds = s.tagHolds := rfl
@[simp] theorem State.modFlight_tagArrivals : (s.modFlight i f).tagArrivals = s.tagArrivals := rfl
@[simp] theorem State.modFlight_adverts : (s.modFlight i f).adverts = s.adverts := rfl
@[simp] theorem State.modFlight_moves : (s.modFlight i f).moves = s.moves := rfl
@[simp] theorem State.modFlight_marks : (s.modFlight i f).marks = s.marks := rfl
@[simp] theorem State.modFlight_cancels : (s.modFlight i f).cancels = s.cancels := rfl
@[simp] theorem State.modFlight_advertAt : (s.modFlight i f).advertAt = s.advertAt := rfl
@[simp] theorem State.modFlight_usageAt : (s.modFlight i f).usageAt = s.usageAt := rfl
@[simp] theorem State.modFlight_barClks : (s.modFlight i f).barClks = s.barClks := rfl
@[simp] theorem State.modFlight_releases : (s.modFlight i f).releases = s.releases := rfl
@[simp] theorem State.modFlight_shadow : (s.modFlight i f).shadow = s.shadow := rfl
@[simp] theorem State.modFlight_thread? (k : Nat) : (s.modFlight i f).thread? k = s.thread? k := rfl
@[simp] theorem State.modFlight_member? (k : Nat) : (s.modFlight i f).member? k = s.member? k := rfl
@[simp] theorem State.modFlight_crew? (k : Nat) : (s.modFlight i f).crew? k = s.crew? k := rfl
@[simp] theorem State.modFlight_frame? (k : Nat) : (s.modFlight i f).frame? k = s.frame? k := rfl
@[simp] theorem State.modFlight_part? (k : Nat) : (s.modFlight i f).part? k = s.part? k := rfl
@[simp] theorem State.modFlight_acct? (k : Nat) : (s.modFlight i f).acct? k = s.acct? k := rfl
@[simp] theorem State.modFlight_core (k : Nat) : (s.modFlight i f).core k = s.core k := rfl
@[simp] theorem State.modFlight_curThread? : (s.modFlight i f).curThread? = s.curThread? := rfl

end

end Sys2Proof.Machine
end

