-- ==== Sys2Proof/Laws/Ops.lean ====
section
/-! SUPPORT. What the shared operations do: the unit that an update changes and the units it leaves alone, and
one equation per operation that names every field of State it can change. -/
namespace Sys2Proof.Machine

open Sys2Proof

/-! ## Keyed lists -/

/-- An update that keeps the key of a search changes only what the search finds. -/
theorem find?_updateIf {α : Type} (l : List α) (p q : α → Bool) (f : α → α) (h : ∀ x, p x = true → q (f x) = q x) :
    (updateIf l p f).find? q = (l.find? q).map fun x => if p x then f x else x := by
  induction l with
  | nil => rfl
  | cons x rest ih =>
    have hq : q (if p x then f x else x) = q x := by
      by_cases hp : p x = true
      · simp [hp, h x hp]
      · simp [hp]
    simp only [updateIf, List.map_cons, List.find?_cons, hq] at ih ⊢
    cases q x
    · exact ih
    · rfl

@[simp] theorem updateIf_length {α : Type} (l : List α) (p : α → Bool) (f : α → α) :
    (updateIf l p f).length = l.length := by simp [updateIf]

/-- An upsert that keeps the key is what the search finds afterwards. -/
theorem find?_upsert_self {α : Type} (l : List α) (p : α → Bool) (x : α) (h : p x = true) :
    (upsert l p x).find? p = some x := by
  unfold upsert
  by_cases ha : l.any p = true
  · rw [if_pos ha, find?_updateIf l p p (fun _ => x) (fun y hy => by rw [h, hy])]
    obtain ⟨y, hy, hp⟩ := List.any_eq_true.mp ha
    cases hf : l.find? p with
    | none => exact absurd hp (by simpa using List.find?_eq_none.mp hf y hy)
    | some z => simp [List.find?_some hf]
  · rw [if_neg ha, List.find?_append]
    have : l.find? p = none := by
      rw [List.find?_eq_none]
      intro y hy hp
      exact ha (List.any_eq_true.mpr ⟨y, hy, hp⟩)
    simp [this, h]

/-- An upsert leaves a search with another key alone. -/
theorem find?_upsert_other {α : Type} (l : List α) (p q : α → Bool) (x : α) (hx : q x = false)
    (h : ∀ y, p y = true → q y = false) : (upsert l p x).find? q = l.find? q := by
  unfold upsert
  by_cases ha : l.any p = true
  · rw [if_pos ha, find?_updateIf l p q (fun _ => x) (fun y hy => by rw [hx, h y hy])]
    cases hf : l.find? q with
    | none => rfl
    | some z =>
      have hz : p z = false := by
        cases hp : p z with
        | false => rfl
        | true =>
          have := h z hp
          rw [List.find?_some hf] at this
          exact absurd this (by decide)
      simp [hz]
  · rw [if_neg ha, List.find?_append]
    simp [hx]

/-! ## Units by their numbers -/

section
variable (s : State)

theorem State.thread?_modThread (u v : Nat) (f : Thread → Thread) (h : ∀ t, (f t).uid = t.uid) :
    (s.modThread u f).thread? v = if v = u then (s.thread? u).map f else s.thread? v := by
  show (updateIf s.threads (fun t => t.uid == u) f).find? (fun t => t.uid == v) = _
  rw [find?_updateIf _ _ _ _ (fun x _ => by rw [h])]
  by_cases hv : v = u
  · subst hv
    rw [if_pos rfl]
    show _ = (s.threads.find? fun t => t.uid == v).map f
    cases hf : s.threads.find? (fun t => t.uid == v) with
    | none => rfl
    | some x => simp [by simpa using List.find?_some hf]
  · rw [if_neg hv]
    show _ = s.threads.find? fun t => t.uid == v
    cases hf : s.threads.find? (fun t => t.uid == v) with
    | none => rfl
    | some x =>
      have hx : x.uid = v := by simpa using List.find?_some hf
      simp [hx, hv]

theorem State.member?_modMember (m n : Nat) (f : Member → Member) (h : ∀ x, (f x).id = x.id) :
    (s.modMember m f).member? n = if n = m then (s.member? m).map f else s.member? n := by
  show (updateIf s.members (fun x => x.id == m) f).find? (fun x => x.id == n) = _
  rw [find?_updateIf _ _ _ _ (fun x _ => by rw [h])]
  by_cases hn : n = m
  · subst hn
    rw [if_pos rfl]
    show _ = (s.members.find? fun x => x.id == n).map f
    cases hf : s.members.find? (fun x => x.id == n) with
    | none => rfl
    | some x => simp [by simpa using List.find?_some hf]
  · rw [if_neg hn]
    show _ = s.members.find? fun x => x.id == n
    cases hf : s.members.find? (fun x => x.id == n) with
    | none => rfl
    | some x =>
      have hx : x.id = n := by simpa using List.find?_some hf
      simp [hx, hn]

theorem State.core_modCore (c d : Nat) (f : Core → Core) (h : ∀ x, (f x).id = x.id) :
    (s.modCore c f).core d = if d = c then f (s.core c) else s.core d := by
  have hid : (s.core c).id = c := by
    show ((s.cores.find? fun x => x.id == c).getD (Core.fresh c)).id = c
    cases hf : s.cores.find? (fun x => x.id == c) with
    | none => rfl
    | some x => simpa using List.find?_some hf
  show ((upsert s.cores (fun x => x.id == c) (f (s.core c))).find? fun x => x.id == d).getD (Core.fresh d) = _
  by_cases hd : d = c
  · subst hd
    rw [if_pos rfl, find?_upsert_self _ _ _ (by simp [h, hid])]
    rfl
  · rw [if_neg hd, find?_upsert_other]
    · rfl
    · simp [h, hid]
      exact fun e => hd e.symm
    · intro y hy
      have : y.id = c := by simpa using hy
      simp [this]
      exact fun e => hd e.symm

/-! ## What an operation can change -/

theorem State.chargeMember_eq (m : Nat) (u : Usage) : ∃ as, s.chargeMember m u = { s with accts := as } := by
  unfold State.chargeMember
  split
  · exact ⟨_, rfl⟩
  · exact ⟨_, rfl⟩

theorem State.chargeIssue_eq (m n : Nat) : ∃ ms as, s.chargeIssue m n = { s with members := ms, accts := as } := by
  obtain ⟨as, h⟩ := (s.modMember m fun x => { x with issue := x.issue + n }).chargeMember_eq m
    { Usage.zero with issue := n }
  exact ⟨_, as, h⟩

/-- A word that issues changes its thread, its member's issue count and its account's usage. -/
theorem State.begin_eq (t : Thread) (i : Instr) :
    ∃ ts ms as, s.begin t i = { s with threads := ts, members := ms, accts := as } := by
  unfold State.begin
  split
  · dsimp only
    split
    · obtain ⟨ms, as, h⟩ := s.chargeIssue_eq t.member 1
      exact ⟨_, ms, as, by rw [h]; rfl⟩
    · exact ⟨_, _, _, rfl⟩
  · exact ⟨_, _, _, rfl⟩

/-- A word that has begun holds its thread from now on, and its path T accesses follow what its girt operands'
writers had done; a prefix waits as before. -/
theorem State.begin_threads (t : Thread) (i : Instr) (h : t.wait.atWord = true) :
    (s.begin t i).threads = updateIf s.threads (fun x => x.uid == t.uid) fun x =>
      { x.follow (s.girtClock t i) with
        wait := if (coversOf i).isNone then .word else x.wait
        issuedAt := s.clock } := by
  obtain ⟨ms, as, hc⟩ := s.chargeIssue_eq t.member 1
  have hg : ∀ s' : State, (∃ ms as, s' = { s with members := ms, accts := as }) →
      s'.girtClock t i = s.girtClock t i := by
    rintro _ ⟨ms, as, rfl⟩
    rfl
  unfold State.begin
  rw [if_pos h]
  dsimp only
  split
  · rw [hg _ ⟨ms, as, hc⟩, hc]
    rfl
  · rfl

/-- A value lands in a register of its thread or in a girt ring. -/
theorem State.write_eq (u : Nat) (d : Slot) (v : Word) :
    ∃ ts fs, s.write u d v = { s with threads := ts, frames := fs } := by
  cases d with
  | drop => exact ⟨_, _, rfl⟩
  | reg i => exact ⟨_, _, rfl⟩
  | girt f k g l => exact ⟨_, _, rfl⟩

theorem State.writeAll_eq (u : Nat) (ds : List Slot) (vs : List Word) :
    ∃ ts fs, s.writeAll u ds vs = { s with threads := ts, frames := fs } := by
  induction ds generalizing s vs with
  | nil => exact ⟨_, _, rfl⟩
  | cons d ds ih =>
    cases vs with
    | nil => exact ⟨_, _, rfl⟩
    | cons v vs =>
      obtain ⟨ts, fs, h⟩ := s.write_eq u d v
      obtain ⟨ts', fs', h'⟩ := ih (s.write u d v) vs
      exact ⟨ts', fs', by rw [State.writeAll, h', h]⟩

theorem State.result_eq (t : Thread) (d : Name) (v : Word) :
    ∃ ts fs, s.result t d v = { s with threads := ts, frames := fs } := by
  obtain ⟨ts, fs, h⟩ := s.write_eq t.uid (s.slotOf t d) v
  exact ⟨_, fs, by rw [State.result, State.setName, h]; rfl⟩

theorem State.resultPair_eq (t : Thread) (d : Name) (v : DWord) :
    ∃ ts fs, s.resultPair t d v = { s with threads := ts, frames := fs } := by
  obtain ⟨ts, fs, h⟩ := s.writeAll_eq t.uid (s.pairSlots t d) [loWord v, hiWord v]
  exact ⟨_, fs, by rw [State.resultPair, State.setPair, h]; rfl⟩

theorem State.resultPred_eq (t : Thread) (k : BitVec 3) (v : Bool) :
    ∃ ts, s.resultPred t k v = { s with threads := ts } := ⟨_, rfl⟩

theorem State.markDue_eq (u flight : Nat) (ds : List Slot) :
    ∃ ts fs, s.markDue u flight ds = { s with threads := ts, frames := fs } := by
  induction ds generalizing s with
  | nil => exact ⟨_, _, rfl⟩
  | cons d ds ih =>
    cases d with
    | drop => exact ih s
    | reg i => exact ih (s.modThread u fun t => { t with marks := t.marks ++ [(i, flight)] })
    | girt f k g l => exact ih (s.modFrame f fun x => x.setGirt ⟨k, g, l, 0, false, true, s.accessClk u⟩)

theorem State.landDue_eq (u flight : Nat) (ds : List Slot) (vs : List Word) :
    ∃ ts fs, s.landDue u flight ds vs = { s with threads := ts, frames := fs } := by
  obtain ⟨ts, fs, h⟩ := s.writeAll_eq u ds vs
  exact ⟨_, fs, by rw [State.landDue, h]; rfl⟩

theorem State.snapshot_eq (part : Nat) (k : Snap) : ∃ ps, (s.snapshot part k).1 = { s with parts := ps } := by
  unfold State.snapshot
  split
  · exact ⟨_, rfl⟩
  · split
    · exact ⟨_, rfl⟩
    · exact ⟨_, rfl⟩

theorem State.snapOnCause_eq (m : Member) (core tid cause : Nat) :
    ∃ ps, s.snapOnCause m core tid cause = { s with parts := ps } := by
  unfold State.snapOnCause
  split
  · exact ⟨_, rfl⟩
  · split
    · exact s.snapshot_eq _ _
    · exact ⟨_, rfl⟩

/-- A recorded cause changes its member's end status and the lifetime counts. -/
theorem State.recordFault_eq (m cause : Nat) :
    ∃ ms n, s.recordFault m cause = { s with members := ms, nym := n } := by
  unfold State.recordFault
  split
  · exact ⟨_, _, rfl⟩
  · exact ⟨_, _, rfl⟩

/-- A lost cause of a thread changes the snapshot latch too. -/
theorem State.recordLoss_eq (t : Thread) (m : Member) (cause lost : Nat) :
    ∃ ms n ps, s.recordLoss t m cause lost = { s with members := ms, nym := n, parts := ps } := by
  obtain ⟨ms, n, h⟩ := s.recordFault_eq m.id cause
  obtain ⟨ps, h'⟩ := State.snapOnCause_eq ((s.recordFault m.id cause).modMember m.id fun x =>
    { x with losses := x.losses ++ [(cause, lost)] }) m t.core t.tid cause
  exact ⟨_, n, ps, by rw [State.recordLoss, h', h]; rfl⟩

/-- A waking event changes its core. -/
theorem State.wakeCore_eq (c : Nat) : ∃ cs, s.wakeCore c = { s with cores := cs } := by
  unfold State.wakeCore
  split
  · exact ⟨_, rfl⟩
  · exact ⟨_, rfl⟩

theorem State.wakeCores_eq (ts : List Thread) :
    ∃ cs, ts.foldl (fun s t => s.wakeCore t.core) s = { s with cores := cs } := by
  induction ts generalizing s with
  | nil => exact ⟨_, rfl⟩
  | cons t rest ih =>
    obtain ⟨cs, h⟩ := s.wakeCore_eq t.core
    obtain ⟨cs', h'⟩ := ih (s.wakeCore t.core)
    exact ⟨cs', by rw [List.foldl_cons, h', h]⟩

/-- A write on monitored words changes threads and cores. -/
theorem State.hitMonitors_eq (l : Loc) (n : Nat) : ∃ ts cs, s.hitMonitors l n = { s with threads := ts, cores := cs } := by
  obtain ⟨cs, h⟩ := State.wakeCores_eq { s with threads := _ } (s.threads.filter _)
  exact ⟨_, cs, h⟩

/-- Bytes written at their home change a memory or a scratchpad, and the monitors on them with their cores. -/
theorem State.putAt_eq (l : Loc) (bs : List Byte) :
    ∃ mem ms ts cs, s.putAt l bs = { s with mem := mem, members := ms, threads := ts, cores := cs } := by
  unfold State.putAt
  cases l.space with
  | zero =>
    obtain ⟨ts, cs, h⟩ := State.hitMonitors_eq { s with mem := s.mem.put l.off bs } l bs.length
    exact ⟨_, _, ts, cs, h⟩
  | succ n =>
    obtain ⟨ts, cs, h⟩ := State.hitMonitors_eq (s.modMember n fun x =>
      { x with scratch := x.scratch.put l.off bs }.markDirty l.off bs.length) l bs.length
    exact ⟨_, _, ts, cs, h⟩

/-- Memory bytes written at their home. -/
theorem State.putAt_mem (off : Nat) (bs : List Byte) : (s.putAt ⟨0, off⟩ bs).mem = s.mem.put off bs := by
  obtain ⟨ts, cs, h⟩ := State.hitMonitors_eq { s with mem := s.mem.put off bs } ⟨0, off⟩ bs.length
  show (State.hitMonitors { s with mem := s.mem.put off bs } ⟨0, off⟩ bs.length).mem = _
  rw [h]

theorem State.putAt_mem_wf (l : Loc) (bs : List Byte) (h : s.mem.wf = true) : (s.putAt l bs).mem.wf = true := by
  unfold State.putAt
  cases l.space with
  | zero =>
    obtain ⟨ts, cs, e⟩ := State.hitMonitors_eq { s with mem := s.mem.put l.off bs } l bs.length
    dsimp only
    rw [e]
    exact Memory.put_wf _ _ h
  | succ n =>
    obtain ⟨ts, cs, e⟩ := State.hitMonitors_eq (s.modMember n fun x =>
      { x with scratch := x.scratch.put l.off bs }.markDirty l.off bs.length) l bs.length
    dsimp only
    rw [e]
    exact h

/-- A thread after its word has begun, and every other thread as before. -/
theorem State.begin_thread? (t : Thread) (i : Instr) (v : Nat) (h : t.wait.atWord = true) :
    (s.begin t i).thread? v =
    if v = t.uid then (s.thread? t.uid).map fun x =>
      { x.follow (s.girtClock t i) with
        wait := if (coversOf i).isNone then .word else x.wait
        issuedAt := s.clock }
    else s.thread? v := by
  have hs := State.thread?_modThread s t.uid v (fun x => { x.follow (s.girtClock t i) with
    wait := if (coversOf i).isNone then .word else x.wait
    issuedAt := s.clock }) (fun _ => rfl)
  rw [← hs]
  show (s.begin t i).threads.find? _ = _
  rw [s.begin_threads t i h]
  rfl

/-- A thread that already holds its word begins it with nothing changed. -/
theorem State.begin_of_held (t : Thread) (i : Instr) (h : t.wait.atWord = false) : s.begin t i = s := by
  simp [State.begin, h]

/-- A cause that is posted changes its thread's queue, or its member's deferred list or end status. -/
theorem State.postCause_eq (u : Nat) (p : Pending) :
    ∃ ts ms n ps, s.postCause u p = { s with threads := ts, members := ms, nym := n, parts := ps } := by
  unfold State.postCause
  split
  · exact ⟨_, _, _, _, rfl⟩
  · split
    · exact ⟨_, _, _, _, rfl⟩
    · rename_i t _ _ m _
      obtain ⟨ms, n, ps, h⟩ := s.recordLoss_eq t m 0x183 p.cause
      split
      · split
        · exact ⟨_, _, _, _, rfl⟩
        · exact ⟨_, ms, n, ps, h⟩
      · split
        · exact ⟨_, _, _, _, rfl⟩
        · exact ⟨_, ms, n, ps, h⟩

/-! ## Traps -/

/-- A trap of a thread that is not in its handler: it enters the handler, and its cause is counted. -/
theorem State.trap_of_free (u cause : Nat) (addr : DWord) (t : Thread) (m : Member) (ht : s.thread? u = some t)
    (hm : s.member? t.member = some m) (hb : t.busy = false) : s.trap u cause addr =
    ((s.modThread u fun t => t.enterHandler (s.handlerOf m) cause addr false false none).countTrap
      cause).snapOnCause m t.core t.tid cause := by
  simp [State.trap, ht, hm, hb]

/-- A trap of a thread in its handler, outside a bent, ends it with cause 0x182 beside its own. -/
theorem State.trap_of_busy (u cause : Nat) (addr : DWord) (t : Thread) (m : Member) (ht : s.thread? u = some t)
    (hm : s.member? t.member = some m) (hb : t.busy = true) (hf : s.bentOf t = none) : s.trap u cause addr =
    (s.recordLoss t m 0x182 cause).endThread u := by
  simp [State.trap, ht, hm, hb, hf]

/-! ## Issue -/

/-- What an issue can do: trap with the failing check, wait, or run the word's effect once it has begun. -/
theorem State.issue_cases (t : Thread) (i : Instr) (ready : State → Thread → Bool) (body : State → Thread → State) :
    (∃ c a, s.issueCause t i = some (c, a) ∧ s.issue t i ready body = s.trap t.uid c a) ∨
    (s.issueCause t i = none ∧ (s.operandsWait t i = true ∨ ready s t = false) ∧ s.issue t i ready body = s) ∨
    (s.issueCause t i = none ∧ s.operandsWait t i = false ∧ ready s t = true ∧
      s.issue t i ready body = body (s.begin t i) t) := by
  unfold State.issue
  cases hc : s.issueCause t i with
  | some x => exact .inl ⟨x.1, x.2, rfl, rfl⟩
  | none =>
    cases ho : s.operandsWait t i with
    | true => exact .inr (.inl ⟨rfl, .inl rfl, by simp⟩)
    | false =>
      cases hr : ready s t with
      | false => exact .inr (.inl ⟨rfl, .inr rfl, by simp⟩)
      | true => exact .inr (.inr ⟨rfl, rfl, rfl, by simp⟩)

/-- A word of a current thread has a next state. -/
theorem issueWord_next (i : Instr) (t : Thread) (body : State → Thread → State) (h : s.curThread? = some t) :
    issueWord i s body = .next (s.issue t i (fun _ _ => true) body) := by
  simp [issueWord, h]

/-- A word that issues has its effect. -/
theorem Issues.issueWord {s : State} {t : Thread} {i : Instr} (h : Issues s t i) (body : State → Thread → State) :
    issueWord i s body = .next (body (s.begin t i) t) := by
  simp [Machine.issueWord, h.thread, State.issue, h.checks, h.operands]

/-- A word that issues when it is ready has its effect. -/
theorem Issues.issueWhen {s : State} {t : Thread} {i : Instr} (h : Issues s t i) (ready : State → Thread → Bool)
    (body : State → Thread → State) (hr : ready s t = true) :
    issueWhen i s ready body = .next (body (s.begin t i) t) := by
  simp [Machine.issueWhen, h.thread, State.issue, h.checks, h.operands, hr]

/-- A word that issues jointly has its effect for its lane set. -/
theorem IssuesJointly.issueJoint {s : State} {t : Thread} {i : Instr} {ts : List Thread} (h : IssuesJointly s t i ts)
    (ready : State → Thread → Bool) (body : State → Thread → List Thread → State)
    (hr : ready (s.releaseLabel t.crew t.pc) t = true) : issueJoint i s ready body = .next (body ((s.releaseLabel t.crew t.pc).beginAll i ts) t ts) := by
  rw [h.lanes]
  simp [Machine.issueJoint, h.thread, h.checks, h.ready, hr]

end

/-! ## Predicates -/

theorem oneHot_getLsbD (k j : BitVec 3) : ((1#8 <<< k.toNat).getLsbD j.toNat) = decide (j = k) := by
  revert k j
  decide

/-- Predicate 0 keeps what it held, and a predicate written reads its new value. -/
theorem setPredBit_getLsbD (ps : BitVec 8) (k j : BitVec 3) (v : Bool) :
    (setPredBit ps k v).getLsbD j.toNat = if k ≠ 0 ∧ j = k then v else ps.getLsbD j.toNat := by
  have hj : j.toNat < 8 := j.isLt
  unfold setPredBit
  by_cases hk : k = 0#3
  · simp [hk]
  · rw [if_neg (show ¬k = 0 from hk)]
    cases v
    · rw [if_neg (by decide), BitVec.getLsbD_and, BitVec.getLsbD_not, oneHot_getLsbD]
      by_cases h : j = k
      · simp [h, hk]
      · simp [h, hj]
    · rw [if_pos rfl, BitVec.getLsbD_or, oneHot_getLsbD]
      by_cases h : j = k
      · simp [h, hk]
      · simp [h]

end Sys2Proof.Machine
end

