-- ==== Sys2Proof/Tests/Slice0.lean ====
section
/-! SUPPORT. Tests: words of the encoding tables and what they decode to, ill-formed instructions, and for the
statements of Certificates/Slice0 states and operands that meet their hypotheses. Expected results come from
spec/ (the rule is named) or are worked out by hand. -/
namespace Sys2Proof.Machine

open Sys2Proof

set_option Elab.async false

/-! ## Decoding (spec/04_encoding.md and the chapters' tables) -/

/-- Each word decodes to its instruction. -/
def decodesAll (l : List (Word × Instr)) : Bool := l.all fun x => decide (decode x.1 = .ok x.2)

theorem test_decode_control : decodesAll [
    (0x00200000, .nop), (0x00400000, .exit), (0x00600000, .yield), (0x008015CD, .bi 0x2B 0x4D),
    (0x00A015CD, .calli 0x2B 0x4D), (0x00C01580, .ret 0x2B), (0x040015AD, .trap 0x2B 0x2D),
    (0x04201580, .rett 0x2B), (0x04554100, .mfx 0x55 2), (0x0460014D, .mtx 2 0x4D), (0x04955580, .snap 0x55 0x2B),
    (0x04A0004D, .bkpt 0x4D), (0x04D54000, .fltq 0x55), (0x0800AEA5, .pause 0x2B 0x2A5),
    (0x132C0FFE, .b 3 0x2C0FFE), (0x13AC0FFE, .bn 3 0x2C0FFE), (0x182C0FFE, .jmp 0x2C0FFE),
    (0x192C0FFE, .call 0x2C0FFE)] = true := by decide

theorem test_decode_guards : decodesAll [
    (0x200D3000, .guard 3 0x13), (0x200F3000, .guardn 3 0x13), (0x22153000, .sguard 5 0x13)] = true := by decide

theorem test_decode_crews : decodesAll [
    (0x28355580, .crewnew 0x55 0x2B), (0x28555580, .join 0x55 0x2B), (0x28754000, .leave 0x55),
    (0x28801580, .rejoin 0x2B), (0x28B55582, .crewq 0x55 0x2B 2), (0x28D55583, .ballot 0x55 0x2B 3)] = true := by decide

theorem test_decode_frames : decodesAll [
    (0x302015CD, .frame 0x2B 0x4D), (0x30400000, .frameend), (0x30600000, .fbreak), (0x30815580, .gseed 5 0x2B),
    (0x30B54005, .gcollect 0x55 5), (0x30C0FD00, .gpres 3 0x7A)] = true := by decide

theorem test_decode_integer : decodesAll [
    (0x383555CD, .add 0x55 0x2B 0x4D), (0x385555CD, .sub 0x55 0x2B 0x4D), (0x387555CD, .mul 0x55 0x2B 0x4D),
    (0x389555CD, .mulh 0x55 0x2B 0x4D), (0x38B555CD, .mulhu 0x55 0x2B 0x4D), (0x38D555CD, .mulw 0x55 0x2B 0x4D),
    (0x38F555CD, .div 0x55 0x2B 0x4D), (0x391555CD, .divu 0x55 0x2B 0x4D), (0x393555CD, .rem 0x55 0x2B 0x4D),
    (0x395555CD, .remu 0x55 0x2B 0x4D), (0x397555CD, .and 0x55 0x2B 0x4D), (0x399555CD, .or 0x55 0x2B 0x4D),
    (0x39B555CD, .xor 0x55 0x2B 0x4D), (0x39D555CD, .andn 0x55 0x2B 0x4D), (0x39F555CD, .shl 0x55 0x2B 0x4D),
    (0x3A1555CD, .shr 0x55 0x2B 0x4D), (0x3A3555CD, .sra 0x55 0x2B 0x4D), (0x3A5555CD, .rol 0x55 0x2B 0x4D),
    (0x3A7555CD, .min 0x55 0x2B 0x4D), (0x3A9555CD, .max 0x55 0x2B 0x4D), (0x3AB555CD, .minu 0x55 0x2B 0x4D),
    (0x3AD555CD, .maxu 0x55 0x2B 0x4D), (0x3AF55580, .clz 0x55 0x2B), (0x3B155580, .popc 0x55 0x2B),
    (0x3B355580, .brev 0x55 0x2B), (0x3B5555CD, .add64 0x55 0x2B 0x4D), (0x3B7555CD, .sub64 0x55 0x2B 0x4D),
    (0x3CD555CD, .sel 6 0x55 0x2B 0x4D), (0x3EA0D5CD, .cmp 5 3 0x2B 0x4D)] = true := by decide

theorem test_decode_immediates : decodesAll [
    (0x40AAAEA5, .addi 0x55 0x2B 0x2A5), (0x41AAAEA5, .andi 0x55 0x2B 0x2A5), (0x42AAAEA5, .ori 0x55 0x2B 0x2A5),
    (0x43AAAEA5, .xori 0x55 0x2B 0x2A5), (0x44AAAC16, .shli 0x55 0x2B 0x16), (0x45AAAC16, .shri 0x55 0x2B 0x16),
    (0x46AAAC16, .srai 0x55 0x2B 0x16), (0x47AAAEA5, .muli 0x55 0x2B 0x2A5), (0x4AADA5A5, .li 0x55 0x5A5A5),
    (0x4EADA5A5, .lih 0x55 0x5A5A5), (0x5506AEA5, .cmpi 5 3 0x2B 0x2A5)] = true := by decide

theorem test_decode_predicates : decodesAll [
    (0x58218185, .pand 6 3 5), (0x58418185, .por 6 3 5), (0x58618185, .pxor 6 3 5), (0x58818180, .pnot 6 3),
    (0x58B54000, .pget 0x55), (0x58C01580, .pset 0x2B), (0x58E01580, .wbase 0x2B), (0x59154000, .wbaseq 0x55),
    (0x59354880, .mfs 0x55 0x11), (0x594008CD, .mts 0x11 0x4D)] = true := by decide

theorem test_decode_loads : decodesAll [
    (0x60AB35C3, .ldB 0x55 0x4D 0x1C3), (0x61AB35C3, .ldBs 0x55 0x4D 0x1C3), (0x62AB35C3, .ldH 0x55 0x4D 0x1C3),
    (0x63AB35C3, .ldHs 0x55 0x4D 0x1C3), (0x64AB35C3, .ldW 0x55 0x4D 0x1C3), (0x65AB35C3, .ldD 0x55 0x4D 0x1C3),
    (0x66AB35C3, .ldQ 0x55 0x4D 0x1C3), (0x670335C3, .prfm 1 0x4D 0x1C3)] = true := by decide

theorem test_decode_stores : decodesAll [
    (0x68AB35C3, .stB 0x55 0x4D 0x1C3), (0x69AB35C3, .stH 0x55 0x4D 0x1C3), (0x6AAB35C3, .stW 0x55 0x4D 0x1C3),
    (0x6BAB35C3, .stD 0x55 0x4D 0x1C3), (0x6CAB35C3, .stQ 0x55 0x4D 0x1C3)] = true := by decide

theorem test_decode_indexed : decodesAll [
    (0x703555CD, .ldxB 0x55 0x2B 0x4D), (0x705555CD, .ldxBs 0x55 0x2B 0x4D), (0x707555CD, .ldxH 0x55 0x2B 0x4D),
    (0x709555CD, .ldxHs 0x55 0x2B 0x4D), (0x70B555CD, .ldxW 0x55 0x2B 0x4D), (0x70D555CD, .ldxD 0x55 0x2B 0x4D),
    (0x70F555CD, .ldxQ 0x55 0x2B 0x4D), (0x713555CD, .stxB 0x55 0x2B 0x4D), (0x715555CD, .stxH 0x55 0x2B 0x4D),
    (0x717555CD, .stxW 0x55 0x2B 0x4D), (0x719555CD, .stxD 0x55 0x2B 0x4D), (0x71B555CD, .stxQ 0x55 0x2B 0x4D),
    (0x72155580, .aptest 0x55 0x2B), (0x72355580, .apcvtOff 0x55 0x2B), (0x72555580, .apcvtLoc 0x55 0x2B),
    (0x72755580, .apcvtClu 0x55 0x2B), (0x731555CD, .mapset 0x55 0x2B 0x4D), (0x73201580, .maprel 0x2B),
    (0x73401580, .mapflush 0x2B), (0x736015CD, .mapfill 0x2B 0x4D), (0x738015CD, .mmovW 0x2B 0x4D),
    (0x73A015CD, .mswpW 0x2B 0x4D)] = true := by decide

theorem test_decode_atomics : decodesAll [
    (0x7835558E, .aadd 0x55 0x2B ⟨0, false, true, true, 2⟩),
    (0x78555591, .amin 0x55 0x2B ⟨0, true, false, false, 1⟩),
    (0x7875558E, .amax 0x55 0x2B ⟨0, false, true, true, 2⟩),
    (0x7895558E, .aand 0x55 0x2B ⟨0, false, true, true, 2⟩),
    (0x78B55591, .aor 0x55 0x2B ⟨0, true, false, false, 1⟩),
    (0x78D5558E, .axor 0x55 0x2B ⟨0, false, true, true, 2⟩),
    (0x78F55591, .axchg 0x55 0x2B ⟨0, true, false, false, 1⟩),
    (0x791555CE, .acas 0x55 0x2B ⟨2, false, true, true, 2⟩),
    (0x793555CE, .acas64 0x55 0x2B ⟨2, false, true, true, 2⟩),
    (0x7955558E, .afadd 0x55 0x2B ⟨0, false, true, true, 2⟩),
    (0x7975558E, .afmax 0x55 0x2B ⟨0, false, true, true, 2⟩)] = true := by decide

theorem test_decode_order : decodesAll [
    (0x80200000, .phase), (0x80400201, .fence 4 1), (0x8100034D, .tbar 6 0x4D), (0x8120034D, .tbarP 6 0x4D),
    (0x8155434D, .tbara 0x55 6 0x4D), (0x8175434D, .tbaraP 0x55 6 0x4D), (0x8180034D, .tbarw 6 0x4D),
    (0x81A0034D, .tbarwP 6 0x4D), (0x82155580, .monitor 0x55 0x2B), (0x82355580, .mwaitm 0x55 0x2B)] = true := by decide

theorem test_decode_float : decodesAll [
    (0x893555CD, .fadd 2 1 0x55 0x2B 0x4D), (0x8B3555CD, .fsub 2 1 0x55 0x2B 0x4D),
    (0x8D3555CD, .fmul 2 1 0x55 0x2B 0x4D), (0x8F3555CD, .ffma 2 1 0x55 0x2B 0x4D)] = true := by decide

theorem test_decode_floatMore : decodesAll [
    (0x905555CD, .fmin 2 0x55 0x2B 0x4D), (0x90D555CD, .fmax 2 0x55 0x2B 0x4D), (0x91555580, .fneg 2 0x55 0x2B),
    (0x91D55580, .fabs 2 0x55 0x2B), (0x92155580, .frcp 0x55 0x2B), (0x92955580, .frsq 0x55 0x2B),
    (0x93155580, .fexp2 0x55 0x2B), (0x93955580, .flog2 0x55 0x2B), (0x94A0D5CD, .fcmp 5 3 0x2B 0x4D)] = true := by decide

theorem test_decode_convert : decodesAll [
    (0x983555A5, .cvt 1 0x55 0x2B 4 5), (0x98B555A5, .cvts 1 0x55 0x2B 4 5), (0x991555A5, .cvtt 0x55 0x2B 4 5),
    (0x9A5555CD, .bscale 2 0x55 0x2B 0x4D)] = true := by decide

theorem test_decode_packed : decodesAll [
    (0xA03555CD, .padd16s 0x55 0x2B 0x4D), (0xA05555CD, .psub16s 0x55 0x2B 0x4D),
    (0xA07555CD, .pmul16 0x55 0x2B 0x4D), (0xA09555CD, .pmax16 0x55 0x2B 0x4D),
    (0xA0B555CD, .pmin16 0x55 0x2B 0x4D), (0xA0D555CD, .pmac16 0x55 0x2B 0x4D),
    (0xA0F555CD, .shrrsS16 0x55 0x2B 0x4D), (0xA11555CD, .shrrsS8 0x55 0x2B 0x4D),
    (0xA13555CD, .shrrsN8 0x55 0x2B 0x4D), (0xA1954000, .satrd 0x55), (0xA1A00000, .satcl)] = true := by decide

theorem test_decode_crossLane : decodesAll [
    (0xA83555CD, .shfl 0x55 0x2B 0x4D), (0xA9955580, .xred 4 0x55 0x2B), (0xAA955580, .xscan 4 0x55 0x2B),
    (0xAC9555CD, .slideDn 4 0x55 0x2B 0x4D), (0xAE9555CD, .slideUp 4 0x55 0x2B 0x4D)] = true := by decide

theorem test_decode_tiles : decodesAll [
    (0xB02695CD, .mcfg 0x1A 0x2B 0x4D), (0xB0554A80, .mrdc 0x55 0x15), (0xB06695CD, .mld 0x1A 0x2B 0x4D),
    (0xB08695CD, .mst 0x1A 0x2B 0x4D), (0xB1154000, .macq 0x55), (0xB1200000, .mrel)] = true := by decide

theorem test_decode_array : decodesAll [
    (0xB8200A8E, .mma 0x15 0xE), (0xBA000000, .mzero), (0xC02A4000, .shiftout 0x29), (0xC04A4000, .shiftin 0x29),
    (0xC06A4000, .accclr 0x29), (0xC09555CD, .drainqBf16 0x55 0x2B 0x4D), (0xC0B555CD, .drainqE4m3 0x55 0x2B 0x4D),
    (0xC0D555CD, .drainqE5m2 0x55 0x2B 0x4D), (0xC0F555CD, .drainqE2m1 0x55 0x2B 0x4D)] = true := by decide

theorem test_decode_copies : decodesAll [
    (0xC83555CD, .cpy 0x55 0x2B 0x4D), (0xC85555CD, .cpym 0x55 0x2B 0x4D), (0xC86A55CD, .cpyaOut 0x29 0x2B 0x4D),
    (0xC88A55CD, .cpyaIn 0x29 0x2B 0x4D), (0xC8B555CD, .cpynPut 0x55 0x2B 0x4D),
    (0xC8D555CD, .cpynGet 0x55 0x2B 0x4D)] = true := by decide

theorem test_decode_barriers : decodesAll [
    (0xD02015CD, .binit 0x2B 0x4D), (0xD04015CD, .bexp 0x2B 0x4D), (0xD06015CD, .barr 0x2B 0x4D),
    (0xD09555CD, .bwait 0x55 0x2B 0x4D), (0xD0A195CD, .btest 6 0x2B 0x4D), (0xD1155580, .stadv 0x55 0x2B),
    (0xD2154580, .ringpushClaim 0x55 0xB), (0xD22005CD, .ringpushFill 0xB 0x4D),
    (0xD2554580, .ringpopTake 0x55 0xB), (0xD26005CD, .ringpopFree 0xB 0x4D), (0xD2954582, .ringq 0x55 0xB 2),
    (0xD3155580, .ringsub 0x55 0x2B), (0xD3355580, .ringsubIn 0x55 0x2B), (0xD3555580, .ringsubOut 0x55 0x2B)] = true := by decide

theorem test_decode_work : decodesAll [
    (0xD83555CD, .spawn 0x55 0x2B 0x4D), (0xD85555CD, .yput 0x55 0x2B 0x4D), (0xD8755580, .jnew 0x55 0x2B),
    (0xD89555CD, .jdec 0x55 0x2B 0x4D), (0xD8B55580, .ycancel 0x55 0x2B)] = true := by decide

theorem test_decode_kv : decodesAll [
    (0xE0355580, .kvlook 0x55 0x2B), (0xE0555580, .kvalloc 0x55 0x2B), (0xE0755580, .kvfree 0x55 0x2B),
    (0xE09555CD, .kvshare 0x55 0x2B 0x4D)] = true := by decide

theorem test_decode_sieve : decodesAll [
    (0xE820014D, .skset 2 0x4D), (0xE840014D, .sieve 2 0x4D), (0xE875404D, .svlist 0x55 0x4D)] = true := by decide

theorem test_decode_dryfit : decodesAll [
    (0xF0355580, .dfopen 0x55 0x2B), (0xF0555580, .dfmark 0x55 0x2B), (0xF0755580, .dfkeep 0x55 0x2B),
    (0xF0955580, .dfdrop 0x55 0x2B), (0xF0B55580, .dfq 0x55 0x2B)] = true := by decide

/-- Fields out of their range are refused: by the predicate, and by the decoder where a word can carry them. -/
theorem test_wf_refuses : [Instr.gpres 1 95, .mfs 1 0x15, .mts 0x10 1, .prfm 3 1 0, .aadd 1 2 ⟨1, false, false, false, 0⟩,
    .axchg 1 2 ⟨0, true, true, false, 0⟩, .acas 1 2 ⟨1, true, false, false, 0⟩, .fence 6 0, .fence 0 7,
    .fadd 3 0 1 2 3, .fabs 3 1 2, .cvt 0 1 2 5 1, .cvtt 1 2 2 4, .xred 6 1 2, .xscan 7 1 2, .mfx 1 5, .mtx 6 1].all
    (fun i => !i.wf && decide (decode (encode i) ≠ .ok i)) = true := by decide

/-- R95: a reserved bit set in a word that is otherwise assigned. -/
theorem test_reserved_bits : [(0x00200001 : Word), 0x20143001, 0x44080020, 0x50100000, 0x58220000, 0x60000000].map
    (fun w => match decode w with | .bad c => c | .ok _ => 0) = [3, 3, 3, 3, 3, 0] := by decide

/-- What the decoder reads of a table word is what a step runs first (R84): NOP as bits. -/
theorem test_table_word : decodeTableWord 32 0x00200000 = some .nop ∧ decodeTableWord 32 0 = none := by decide

/-! ## A small device -/

/-- A record with something of every resource. -/
def demoRec : LaunchRec := { tinyRecord 0 with
  width := 4, regs := 16, scratch := 4, acc := 4, tiles := 8, tags := 8, rings := 8, depth := 8, cqcrew := 8
  spcrews := 4, spslots := 8, flags := 3 }

/-- A partition configuration: a shared range, a KV pool of four pages. -/
def demoCfg : PartCfg where
  clusters := 3
  scores := 1
  ranges := [(0x200000, 0x400000)]
  accounts := [7]
  tenantKeys := [(1, List.replicate 32 0)]
  endpoints := [5]
  contKeys := []
  sigReq := false
  peerBytes := []
  mask := 0
  yardArea := some 4
  ageLimit := some 16
  margin := some 1
  kv := some ⟨4, 0x300000, 0x340000, 8⟩
  sampler := none
  sweepJ := some 20
  snapCodes := []

/-- An empty KV unit. -/
def demoKv : KvUnit := ⟨[], [], [], [], [], [], []⟩

/-- A thread of crew 1, standing at word 0. -/
def demoThread (uid lane : Nat) : Thread := { freshThread uid lane 0 1 1 lane 0 with
  regs := [(1, 7), (2, 3), (3, 0x40), (4, 0xFFFFFF80)] }

/-- A Running member of one crew with two threads on core 0, its code the words given. -/
def demoOf (ws : List Word) : State := { State.reset with
  cur := some 1
  nextId := 100
  nym := { Nym.reset with sill := .running }
  parts := [⟨0, demoCfg, 0x10000, [], demoKv, 0, [], none, [], 0⟩]
  accts := [⟨7, ⟨0, 1, 3, 8, 1⟩, 0, 0, 0, 1, Usage.zero⟩]
  containers := [{ tinyContainer 0 with versions := [⟨1, ws, [⟨1, 0, 0⟩], [demoRec], [], []⟩] }]
  members := [{ tinyMember 1 0 demoRec with acct := 7, ep := 5 }]
  crews := [⟨1, 0, 0, 0, 1, 4, none, true, []⟩]
  threads := [demoThread 1 0, demoThread 2 1] }

/-- The device with a NOP. -/
def demo : State := demoOf [0x00200000]
/-- Its member and its first thread. -/
def demoMember : Member := { tinyMember 1 0 demoRec with acct := 7, ep := 5 }
def demo1 : Thread := demoThread 1 0

/-- The checks that make a word issue. -/
def issuesOk (s : State) (t : Thread) (i : Instr) : Bool :=
  decide (s.curThread? = some t) && (s.issueCause t i).isNone && !s.operandsWait t i

theorem issues_of {s : State} {t : Thread} {i : Instr} (h : issuesOk s t i = true) : Issues s t i := by
  simp only [issuesOk, Bool.and_eq_true, decide_eq_true_eq, Bool.not_eq_true'] at h
  exact ⟨h.1.1, Option.isNone_iff_eq_none.mp h.1.2, h.2⟩

theorem issues_all {s : State} {t : Thread} {l : List Instr} (h : l.all (issuesOk s t) = true) :
    ∀ i ∈ l, Issues s t i := fun i hi => issues_of (List.all_eq_true.mp h i hi)

/-! ## Words that issue (RegisterFrame to TrapRegisters, FloatResults to PackedAndCrossLaneResults) -/

theorem test_hyp_integer_words : ∀ i ∈ [Instr.add 5 1 2, .sub 5 1 2, .mul 5 1 2, .mulh 5 1 2, .mulhu 5 1 2, .div 5 1 0,
    .divu 5 1 2, .rem 5 1 2, .remu 5 1 0, .and 5 1 2, .or 5 1 2, .xor 5 1 2, .andn 5 1 2, .shl 5 1 2, .shr 5 1 2,
    .sra 5 1 2, .rol 5 1 2, .min 5 1 2, .max 5 1 2, .minu 5 1 2, .maxu 5 1 2, .sel 0 5 1 2, .sel 3 0 1 2, .clz 5 1,
    .popc 5 1, .brev 5 1, .addi 5 1 0x3FF, .andi 5 1 3, .ori 5 1 3, .xori 5 1 3, .muli 5 1 3, .shli 5 1 31,
    .shri 5 1 0, .srai 5 1 3, .li 5 0x7FFFF, .lih 5 1, .mulw 5 1 2, .add64 0 1 3, .sub64 5 1 3],
    Issues demo demo1 i := issues_all (by decide)

theorem test_hyp_predicate_words : ∀ i ∈ [Instr.cmp 2 1 1 2, .cmpi 7 0 1 0x200, .pand 1 2 3, .por 1 2 0, .pxor 1 2 3,
    .pnot 1 0, .gpres 1 96, .pget 5, .pset 1, .wbase 1, .wbaseq 5, .mts 0x11 1, .mts 0x14 1, .mfs 5 0x0B, .mfs 5 0x0E,
    .mfs 5 0x00, .mfs 5 0x05, .mfs 5 0x08, .mfs 5 0x13, .mfs 5 0x14],
    Issues demo demo1 i := issues_all (by decide)

theorem test_hyp_control_words : ∀ i ∈ [Instr.nop, .yield, .pause 1 5, .b 1 4, .bn 0 4, .jmp 4, .call 0x7FFFFF, .ret 31,
    .guard 1 0, .guardn 1 31, .exit, .crewnew 5 2, .join 5 1, .leave 5, .rejoin 3, .ballot 5 3 1, .crewq 5 0 1,
    .tbar 7 1, .tbara 5 0 1, .tbarP 1 1, .tbaraP 5 1 1, .dfkeep 5 10, .phase, .fence 0 3, .tbarw 1 1, .tbarwP 1 1],
    Issues demo demo1 i := issues_all (by decide)

theorem test_hyp_trap_words : ∀ i ∈ [Instr.trap 1 63, .trap 0 0, .bkpt 5, .rett 0, .rett 1, .mfx 5 0, .mfx 5 1, .mfx 5 2,
    .mfx 5 3, .mfx 5 4, .mtx 0 1, .mtx 1 1, .mtx 2 1, .mtx 3 0, .mtx 3 1, .mtx 4 1, .snap 5 1, .fltq 8],
    Issues demo demo1 i := issues_all (by decide)

theorem test_hyp_float_words : ∀ i ∈ [Instr.fadd 0 0 5 1 2, .fsub 1 1 5 1 2, .fmul 2 2 5 1 2, .ffma 0 3 5 1 2, .fmin 0 5 1 2,
    .fmax 1 5 1 2, .fneg 2 5 1, .fabs 0 5 1, .frcp 5 1, .frsq 5 1, .fexp2 5 1, .flog2 5 1, .fcmp 6 1 1 2, .fcmp 0 1 1 2,
    .cvt 0 5 1 2 3, .cvts 1 5 1 15 7, .cvtt 5 1 5 0, .bscale 3 5 1 2, .padd16s 5 1 2, .psub16s 5 1 2, .pmul16 5 1 2,
    .pmax16 5 1 2, .pmin16 5 1 2, .pmac16 5 1 2, .shrrsS16 5 1 2, .shrrsS8 5 1 2, .shrrsN8 5 1 2, .satrd 5, .satcl],
    Issues demo demo1 i := issues_all (by decide)

/-- The register words among them are words of RegisterFrame. -/
theorem test_hyp_registerWord : [Instr.add 5 1 2, .sel 3 0 1 2, .mfs 5 0x14, .mts 0x11 1, .aptest 5 1, .ffma 0 3 5 1 2,
    .cvtt 5 1 5 0, .satcl].all (fun i => registerWord i && issuesOk demo demo1 i) = true := by decide

/-- RegisterFrame: registers that are not destinations, predicates that are not written. -/
theorem test_hyp_frame_clauses : Slot.reg 6 ∉ demo.destinations demo1 (.add 5 1 2) ∧
    Slot.reg 5 ∈ demo.destinations demo1 (.add 5 1 2) ∧ writesPred (.add 5 1 2) 1 = false ∧
    writesPred (.cmp 2 1 1 2) 1 = true := by decide

/-- R129, StepRunsDecoded: an issue slot for a thread that may issue; its word decodes, decodes to nothing, or is missing. -/
def demoSlot (w : Word) : State := { demoOf [w] with agenda := [.issue 1] }
theorem test_hyp_step_issue : (demoSlot 0x3820C105).thread? 1 = some demo1 ∧
    (demoSlot 0).member? demo1.member = some demoMember ∧ demoMember.st = .running ∧ demoMember.stop = .none ∧
    demoMember.divert = none ∧ ((demoSlot 0).core 0).gated = false ∧ demo1.wait = .none ∧ demo1.pendq = [] ∧
    demo1.join ≠ some demo1.pc ∧ ((demoSlot 0x3820C105).wordsOf demo1)[0]? = some 0x3820C105 ∧
    decode 0x3820C105 = .ok (.add 3 2 5) ∧ ((demoSlot 0).wordsOf demo1)[0]? = some 0 ∧ decode 0 = .bad 0 ∧
    decode 0x00200001 = .bad 3 ∧ ((demoSlot 0).wordsOf { demo1 with pc := 1 })[1]? = none := by decide

/-- A thread with a cause waiting (R419). -/
def pendingThread : Thread := { demo1 with pendq := [⟨0x0C0, 9, none, false⟩] }
/-- A live prefix in its slot: the first word of its run issues even at a label that is not met (R97). -/
def coveredThread : Thread := { demo1 with pc := 1, wait := .covered 0 [] 0, join := some 1 }
def coveredSlot : State := { demoOf [0x20001000, 0x3820C105] with
  agenda := [.issue 1], threads := [coveredThread, demoThread 2 1] }
theorem test_hyp_step_other :
    coveredSlot.thread? 1 = some coveredThread ∧ coveredThread.wait.atWord = true ∧ coveredThread.pendq = [] ∧
    coveredThread.wait ≠ .none ∧ coveredThread.join = some coveredThread.pc ∧
    (∃ x ∈ ({ coveredSlot with threads := [coveredThread, { demoThread 2 1 with join := some 1 }] } : State).threads,
      x.crew = 1 ∧ x.join = some 1 ∧ x.pc ≠ 1) ∧
    (∀ w, (coveredSlot.wordsOf coveredThread)[coveredThread.pc.toNat]? = some w → w = 0x3820C105) ∧
    (∀ w, ({ demoSlot w with threads := [pendingThread] } : State).thread? 1 = some pendingThread) ∧
    ({ demoSlot 0x3820C105 with threads := [pendingThread] } : State).isReady pendingThread = true ∧
    ({ demoSlot 0x3820C105 with threads := [{ pendingThread with marks := [(2, 60)] }] } : State).isReady
      { pendingThread with marks := [(2, 60)] } = false ∧
    ({ demo with agenda := [.error ⟨0, 0x40⟩] } : State).agenda = [.error ⟨0, 0x40⟩] ∧
    ({ demo with agenda := [.race ⟨0, 0x40⟩ 4] } : State).agenda = [.race ⟨0, 0x40⟩ 4] ∧
    ({ demo1 with pendq := [⟨0x0C0, 0, none, false⟩] } : Thread).pendq ≠ [] ∧
    (∃ x ∈ [demo1, { demoThread 2 1 with join := some 0, pc := 1 }], x.crew = 1 ∧ x.join = some 0 ∧ x.pc ≠ 0) ∧
    (Wait.gather 1).slotOpen = false ∧ Instr.boot.isWord = false := by
  refine ⟨by decide, by decide, by decide, by decide, by decide, by decide, ?_, fun _ => rfl, by decide +kernel,
    by decide +kernel, by decide, by decide, by decide, by decide, by decide, by decide⟩
  intro w h
  have e : (coveredSlot.wordsOf coveredThread)[coveredThread.pc.toNat]? = some 0x3820C105 := by decide
  rw [e] at h
  exact (Option.some.inj h).symm

/-- NothingStops and CanonicalKept: a canonical state, with a current thread, and its step. -/
theorem test_hyp_canonical : demo.Canonical ∧ demo.curThread?.isSome = true ∧
    (∃ s', step { demo with agenda := [.issue 1] } = .next s') :=
  ⟨⟨by decide, by decide, by decide, by decide⟩, by decide, ⟨_, rfl⟩⟩

/-! ## Frames, crews and gatherings -/

/-- A lane of bent 0 of a frame of four iterations and three stages, its thread current. -/
def demoFrame : Frame := ⟨50, 1, 1, 0, 4, 2, 3, 0, 9, [0], [3], 1, 0, [⟨0, 2, [], [], [], []⟩], [], [], [], []⟩
def bent1 : Thread := { demoThread 3 0 with crew := 2 }
def demoBent : State := { demo with
  cur := some 3, crews := demo.crews ++ [⟨2, 0, 0, 1, 1, 4, some (50, 0), true, []⟩]
  threads := demo.threads ++ [bent1], frames := [demoFrame] }
/-- The same with an open run of stage 1. -/
def bentRun : Thread := { bent1 with runs := [⟨true, 1, 5⟩] }
def demoBentRun : State := { demoBent with threads := demo.threads ++ [bentRun] }

theorem test_hyp_stage : Issues demoBent bent1 (.sguard 1 3) ∧ demoBent.bentOf bent1 = some (demoFrame, 0) ∧
    (demoFrame.bents.find? fun x => x.k == 0) = some ⟨0, 2, [], [], [], []⟩ ∧
    bent1.reached ≤ 1 ∧ demoFrame.lockstepOpen 0 1 = true :=
  ⟨issues_of (by decide), by decide, by decide, by decide, by decide⟩
/-- A lane of bent 1 whose predecessor has not come to its stage; a lane that has passed stage 1 itself. -/
def heldBack : State := { demoBent with
  crews := demo.crews ++ [⟨2, 0, 0, 1, 1, 4, some (50, 1), true, []⟩]
  frames := [{ demoFrame with bents := [⟨0, 3, [], [], [], []⟩, ⟨1, 2, [], [], [], []⟩] }] }
def passed1 : Thread := { bent1 with reached := 2 }
def passedOne : State := { demoBent with
  threads := demo.threads ++ [passed1], frames := [{ demoFrame with bents := [⟨0, 2, [], [(0, 2)], [], []⟩] }] }
theorem test_hyp_lockstep : Issues heldBack bent1 (.sguard 1 3) ∧
    heldBack.bentOf bent1 = some ({ demoFrame with bents := [⟨0, 3, [], [], [], []⟩, ⟨1, 2, [], [], [], []⟩] }, 1) ∧
    ({ demoFrame with bents := [⟨0, 3, [], [], [], []⟩, ⟨1, 2, [], [], [], []⟩] } : Frame).lockstepOpen 1 1 = false ∧
    Issues passedOne passed1 (.sguard 1 3) ∧
    passedOne.bentOf passed1 = some ({ demoFrame with bents := [⟨0, 2, [], [(0, 2)], [], []⟩] }, 0) ∧
    ({ demoFrame with bents := [⟨0, 2, [], [(0, 2)], [], []⟩] } : Frame).lockstepOpen 0 1 = true ∧
    1 < passed1.reached :=
  ⟨issues_of (by decide), by decide, by decide, issues_of (by decide), by decide, by decide, by decide⟩
/-- A live prefix; dead ones that skip no stage guard and one of stage 5 (R183). -/
def guarded : State := demoOf [0x20001000, 0x22153000, 0x00200000]
theorem test_hyp_guards : Issues demo demo1 (.guard 0 0) ∧ demo1.pred 0 = true ∧ Issues demo demo1 (.guardn 0 31) ∧
    (∀ w ∈ ((demo.wordsOf demo1).drop (demo1.pc.toNat + 1)).take 32, ∀ x y, decode w = .ok (.sguard x y) → x.toNat ≤ 0) ∧
    Issues guarded demo1 (.guard 1 1) ∧ demo1.pred 1 = false ∧
    (∃ w ∈ ((guarded.wordsOf demo1).drop (demo1.pc.toNat + 1)).take 2, ∃ y, decode w = .ok (.sguard 5 y)) ∧
    (∀ w ∈ ((guarded.wordsOf demo1).drop (demo1.pc.toNat + 1)).take 2, ∀ x y, decode w = .ok (.sguard x y) → x.toNat ≤ 5) := by
  refine ⟨issues_of (by decide), by decide, issues_of (by decide), ?_, issues_of (by decide), by decide,
    ⟨0x22153000, by decide, 0x13, by decide⟩, ?_⟩
  · intro w hw
    have h' : w ∈ ([] : List Word) := hw
    cases h'
  · intro w hw x y h
    have h' : w ∈ [(0x22153000 : Word), 0x00200000] := hw
    simp only [List.mem_cons, List.not_mem_nil, or_false] at h'
    rcases h' with rfl | rfl
    · have e : decode 0x22153000 = .ok (.sguard 5 0x13) := by decide
      rw [e] at h
      cases h
      decide
    · have e : decode 0x00200000 = .ok .nop := by decide
      rw [e] at h
      cases h
/-- A lane whose girt result is still due at FRAMEEND. -/
def girtDue : State := { demoBent with frames := [{ demoFrame with ring := [⟨0, 1, 0, 7, false, true, []⟩] }] }
theorem test_hyp_frameend : Issues girtDue bent1 .frameend ∧
    girtDue.bentOf bent1 = some ({ demoFrame with ring := [⟨0, 1, 0, 7, false, true, []⟩] }, 0) ∧
    (∃ x ∈ ({ demoFrame with ring := [⟨0, 1, 0, 7, false, true, []⟩] } : Frame).ring,
      x.k = 0 ∧ x.lane = bent1.lane ∧ x.written = true ∧ x.peg = false) :=
  ⟨issues_of (by decide), by decide, by decide⟩

theorem test_hyp_frame_words : (∀ i ∈ [Instr.frame 1 2, .gseed 7 1, .gcollect 5 7, .gpres 0 96], Issues demo demo1 i ∧
      demo.inBent demo1 = false) ∧
    (∀ i ∈ [Instr.frame 1 2, .gseed 7 1, .gcollect 5 7, .frameend, .gpres 1 97, .mfs 5 0x08, .mfs 5 0x0A, .mfs 5 0x09],
      Issues demoBent bent1 i ∧ demoBent.inBent bent1 = true) ∧
    Issues demoBentRun bentRun .fbreak ∧ demoBentRun.bentOf bentRun = some (demoFrame, 0) ∧
    (bentRun.runs.filter fun x => x.stageKind).getLast? = some ⟨true, 1, 5⟩ ∧ Issues demo demo1 .fbreak ∧
    (∀ x ∈ demoFrame.ring, x.k = 0 → x.lane = bent1.lane → x.written = true → x.peg = true) :=
  ⟨fun i hi => ⟨issues_all (l := [Instr.frame 1 2, .gseed 7 1, .gcollect 5 7, .gpres 0 96]) (by decide) i hi, by decide⟩,
    fun i hi => ⟨issues_all (l := [Instr.frame 1 2, .gseed 7 1, .gcollect 5 7, .frameend, .gpres 1 97, .mfs 5 0x08,
      .mfs 5 0x0A, .mfs 5 0x09]) (by decide) i hi, by decide⟩,
    issues_of (by decide), by decide, by decide, issues_of (by decide), by decide⟩

/-- MFS in a bent: what the frame crew and bent are; outside: the crew and the member. -/
theorem test_hyp_mfs : demoBent.crew? bent1.crew = some ⟨2, 0, 0, 1, 1, 4, some (50, 0), true, []⟩ ∧
    demoBent.frame? 50 = some demoFrame ∧ demo.member? demo1.member = some demoMember ∧
    demo.crew? demo1.crew = some ⟨1, 0, 0, 0, 1, 4, none, true, []⟩ := by decide

/-- Both threads of the crew stand in the gathering of word 0, the yard's input names it. -/
def gathering (ws : List Word) : State := { demoOf ws with
  input := .gathering 1 0
  threads := [{ demo1 with wait := .gather (BitVec.allOnes 64), regs := [(1, 4), (2, 0x32)] },
    { demoThread 2 1 with wait := .gather (BitVec.allOnes 64) }] }
def gathered1 : Thread := { demo1 with wait := .gather (BitVec.allOnes 64), regs := [(1, 4), (2, 0x32)] }
def gathered2 : Thread := { demoThread 2 1 with wait := .gather (BitVec.allOnes 64) }

/-- REJOIN, BALLOT, PHASE, the tag-barrier arrivals and DFKEEP as the gathered word. -/
theorem test_hyp_gathering : ∀ x ∈ [((0x28800180 : Word), Instr.rejoin 3), (0x28C14181, .ballot 5 3 1),
      (0x80200000, .phase), (0x81000001, .tbar 0 1), (0x81414001, .tbara 5 0 1), (0x81200081, .tbarP 1 1),
      (0x81614081, .tbaraP 5 1 1), (0xF0614500, .dfkeep 5 10), (0x30200082, .frame 1 2)],
    decode x.1 = .ok x.2 ∧ (gathering [x.1]).fetchWord gathered1 = some x.1 ∧
    (gathering [x.1]).input = .gathering 1 gathered1.pc ∧
    (gathering [x.1]).crew? 1 = some ⟨1, 0, 0, 0, 1, 4, none, true, []⟩ ∧
    (gathering [x.1]).member? 1 = some demoMember ∧ demoMember.goesOn = true ∧
    sortBy (·.lane) ((gathering [x.1]).threads.filter fun y => y.gathersAt 1 0) = [gathered1, gathered2] ∧
    minBy [gathered1, gathered2] (·.lane) = some gathered1 ∧
    (gathering [x.1]).gathered ⟨1, 0, 0, 0, 1, 4, none, true, []⟩ [gathered1, gathered2] = true := by decide

theorem test_hyp_gathering_more :
    (∀ t : BitVec 3, t.toNat < demoMember.desc.tags) ∧
    (gathering [0x30200082, 0x30400000]).frameCause demoMember gathered1 2 4 0x32 = none ∧
    ((gathering [0x30200082, 0x30400000]).name gathered1 1, (gathering [0x30200082, 0x30400000]).name gathered1 2) = (4, 0x32) ∧
    (gathering [0x30200082, 0x30400000]).settled (clocksOf [gathered1, gathered2]) = true ∧
    (∀ x ∈ [gathered1, gathered2], (gathering [0x30200082, 0x30400000]).caughtUp x = true) := by decide

/-- A keep whose window and sequence are there passes its checks. -/
theorem test_hyp_keep : ({ gathering [0xF0614500] with threads := [{ gathered1 with regs := [(11, 1)] }] }.keepCause
    { gathered1 with regs := [(11, 1)] } 10) = none := by decide

/-- Tags that the member has not declared. -/
def fewTags : State := { demo with members := [{ demoMember with desc := { demoRec with tags := 2 } }] }
theorem test_hyp_tags : (∀ i ∈ [Instr.tbar 2 1, .tbara 5 7 1], Issues fewTags demo1 i) ∧
    fewTags.member? 1 = some { demoMember with desc := { demoRec with tags := 2 } } ∧
    demo.inBent demo1 = false ∧ demo1.runs = [] ∧ demo.crewById 0 1 0x80000000 = some ⟨1, 0, 0, 0, 1, 4, none, true, []⟩ :=
  ⟨issues_all (by decide), by decide, by decide, by decide, by decide⟩

/-- A second crew that a thread may join, named in v1. -/
def twoCrews : State := { demo with
  crews := demo.crews ++ [⟨2, 0, 3, 1, 1, 2, none, false, []⟩]
  threads := [{ demo1 with regs := [(1, 0x80000301), (2, 3)] }, demoThread 2 1] }
theorem test_hyp_crews : demo.bentOf demo1 = none ∧ (demo.crewThreads 1).length ≠ 1 ∧ (demo.name demo1 2).toNat = 3 ∧
    (∀ i ∈ [Instr.crewnew 5 2, .leave 5], (demo.begin demo1 i).member? 1 = some { demoMember with issue := 1 } ∧
      (demo.begin demo1 i).canMakeCrew { demoMember with issue := 1 } = true) ∧
    (∃ i < 256, ∀ c ∈ demo.crews, c.core = 0 → c.index ≠ i) := by
  refine ⟨by decide, by decide, by decide, by decide, 1, by decide, by decide⟩
theorem test_hyp_join : Issues twoCrews { demo1 with regs := [(1, 0x80000301), (2, 3)] } (.join 5 1) ∧
    twoCrews.crewById 0 1 0x80000301 = some ⟨2, 0, 3, 1, 1, 2, none, false, []⟩ ∧ twoCrews.isFrameCrew 2 = false ∧
    0 ∉ twoCrews.heldLanes 2 := ⟨issues_of (by decide), by decide, by decide, by decide⟩

/-- A frame that may have another bent; a bent whose lanes have ended. -/
theorem test_hyp_bents : demoBent.canCreateBent demoFrame = true ∧ demoBent.memberRuns demoFrame.member = true ∧
    ({ demoFrame with bents := [⟨0, 2, [], [], [0], []⟩] }.bents.find? fun x =>
      { demoFrame with bents := [⟨0, 2, [], [], [0], []⟩] }.canRetire x) = some ⟨0, 2, [], [], [0], []⟩ ∧
    (demoFrame.bents.all fun x => x.k == 0) = true ∧ demoFrame.crew ≠ 2 ∧
    (([⟨0, 2, [], [], [0], []⟩, ⟨1, 3, [], [], [], []⟩] : List Bent).any fun x => x.k != 0) = true ∧
    (({ demoFrame with n := 1, s := 1 } : Frame).n + 1 < demoFrame.next + 2) := by decide

/-! ## Accesses and traps -/

/-- The member once a word of it has issued. -/
def issued1 : Member := { demoMember with issue := 1 }

/-- Where an address points. -/
def targetIs (s : State) (m : Member) (a : DWord) (n : Nat) (x : Target) : Bool :=
  match s.target m a n with
  | .ok y => decide (y = x)
  | .error _ => false

theorem target_of {s : State} {m : Member} {a : DWord} {n : Nat} {x : Target} (h : targetIs s m a n x = true) :
    s.target m a n = .ok x := by
  unfold targetIs at h
  split at h
  · rename_i y hy
    rw [hy, of_decide_eq_true h]
  · exact absurd h (by decide)

theorem test_hyp_walk : Issues demo demo1 (.ldB 5 1 0) ∧ asks demo demo1 (.ldB 5 1 0) = some (.load 0x300000007 1 false [.reg 5]) ∧
    MayAccess (demo.begin demo1 (.ldB 5 1 0)) demo1 issued1 (.load 0x300000007 1 false [.reg 5]) ∧
    (MemOp.load 0x300000007 1 false [.reg 5]).needs = [⟨0x300000007, 1, false, false⟩] ∧
    (demo.begin demo1 (.ldB 5 1 0)).target issued1 0x300000007 1 = .ok (.shared 0x300000007) :=
  ⟨issues_of (by decide), by decide, ⟨by decide, by decide, by decide, by decide, .inl (by decide)⟩, by decide, target_of (by decide)⟩

/-- R222: a load of the word at local offset 0x40. -/
theorem test_hyp_load : Issues demo demo1 (.ldW 5 3 0) ∧
    asks demo demo1 (.ldW 5 3 0) = some (.load 0xFFFFFF8000000040 4 false [.reg 5]) ∧
    MayAccess (demo.begin demo1 (.ldW 5 3 0)) demo1 issued1 (.load 0xFFFFFF8000000040 4 false [.reg 5]) ∧
    PassesLocal (demo.begin demo1 (.ldW 5 3 0)) issued1 ⟨0xFFFFFF8000000040, 4, false, false⟩ ⟨2, 0x40⟩ :=
  ⟨issues_of (by decide), by decide, ⟨by decide, by decide, by decide, by decide, .inl (by decide)⟩,
    ⟨⟨issued1, 0x40, target_of (by decide)⟩, by decide⟩⟩

/-- R223: a store of v1 = 7 there. -/
theorem test_hyp_store : Issues demo demo1 (.stW 1 3 0) ∧
    asks demo demo1 (.stW 1 3 0) = some (.store 0xFFFFFF8000000040 [7, 0, 0, 0]) ∧
    MayAccess (demo.begin demo1 (.stW 1 3 0)) demo1 issued1 (.store 0xFFFFFF8000000040 [7, 0, 0, 0]) ∧
    PassesLocal (demo.begin demo1 (.stW 1 3 0)) issued1 ⟨0xFFFFFF8000000040, 4, true, false⟩ ⟨2, 0x40⟩ :=
  ⟨issues_of (by decide), by decide, ⟨by decide, by decide, by decide, by decide, .inl (by decide)⟩,
    ⟨⟨issued1, 0x40, target_of (by decide)⟩, by decide⟩⟩

/-- R377: an atomic addition of v1 there, with its reply awaited. -/
theorem test_hyp_atomic : Issues demo demo1 (.aadd 1 3 ⟨0, false, true, false, 0⟩) ∧
    asks demo demo1 (.aadd 1 3 ⟨0, false, true, false, 0⟩) =
      some (.atomic 0xFFFFFF8000000040 .add 7 0 ⟨0, false, true, false, 0⟩ [.reg 1]) ∧
    MayAccess (demo.begin demo1 (.aadd 1 3 ⟨0, false, true, false, 0⟩)) demo1 issued1
      (.atomic 0xFFFFFF8000000040 .add 7 0 ⟨0, false, true, false, 0⟩ [.reg 1]) ∧
    PassesLocal (demo.begin demo1 (.aadd 1 3 ⟨0, false, true, false, 0⟩)) issued1
      ⟨0xFFFFFF8000000040, 4, true, true⟩ ⟨2, 0x40⟩ :=
  ⟨issues_of (by decide), by decide, ⟨by decide, by decide, by decide, by decide, .inl (by decide)⟩,
    ⟨⟨issued1, 0x40, target_of (by decide)⟩, by decide⟩⟩

/-- What the sizes and forms ask for, at the edges of the field ranges (R89, R222 to R224, R377). -/
theorem test_asks : asks demo demo1 (.ldHs 5 3 0x3FF) = some (.load 0xFFFFFF800000003E 2 true [.reg 5]) ∧
    asks demo demo1 (.ldxD 5 3 1) = some (.load 0xFFFFFF8000000078 8 false [.reg 5, .reg 6]) ∧
    asks demo demo1 (.stD 0 0 1) = some (.store 0xFFFFFF8000000008 [0, 0, 0, 0, 0, 0, 0, 0]) ∧
    asks demo demo1 (.acas64 1 3 ⟨2, false, false, false, 0⟩) =
      some (.atomic 0xFFFFFF8000000040 .cas64 0xFFFFFF8000000040 0x300000007 ⟨2, false, false, false, 0⟩
        [.reg 1, .reg 2]) := by decide

/-- A flight of the first thread. -/
def demoFlight (op : FlightOp) (dst : List Slot) : Flight := ⟨60, 4, [1], 1, 0, 0, op, dst, false, [], none, [(4, 1)], 0, []⟩
/-- The device with it under way, its number as the event's input. -/
def inFlight (op : FlightOp) (dst : List Slot) : State := { demo with input := .id 60, flights := [demoFlight op dst] }

/-- A home that is there and open, and memories in canonical form. -/
def homeOk (s : State) (l : Loc) : Bool :=
  Memory.wf s.mem && (s.members.all fun m => Memory.wf m.scratch) && s.homeOpen l &&
    (l.space == 0 || (s.member? (l.space - 1)).any fun x => !x.isReleased)
theorem home_of {s : State} {l : Loc} (h : homeOk s l = true) :
    Memory.wf s.mem = true ∧ s.scratchWf ∧ s.homeOpen l = true ∧ s.homeThere l := by
  simp only [homeOk, Bool.and_eq_true, Bool.or_eq_true, beq_iff_eq, List.all_eq_true] at h
  refine ⟨h.1.1.1, h.1.1.2, h.1.2, h.2.imp id fun e => ?_⟩
  cases hx : s.member? (l.space - 1) with
  | none =>
    rw [hx] at e
    exact absurd e (by decide)
  | some x => exact ⟨x, rfl, by simpa [hx] using e⟩

/-- A store and atomics at device memory and at a scratchpad. -/
def performing : List (FlightOp × List Slot × Loc) :=
  [(.store ⟨0, 0x210000⟩ [1, 2, 3, 4], [], ⟨0, 0x210000⟩), (.store ⟨2, 0x40⟩ [1, 2, 3, 4], [], ⟨2, 0x40⟩),
    (.atomic ⟨0, 0x210000⟩ .add 7 0 ⟨0, false, false, false, 0⟩, [.reg 1], ⟨0, 0x210000⟩),
    (.atomic ⟨2, 0x40⟩ .cas 7 0 ⟨0, false, true, true, 2⟩, [.reg 1], ⟨2, 0x40⟩),
    (.atomic ⟨2, 0x40⟩ .cas64 7 0 ⟨0, true, false, false, 0⟩, [], ⟨2, 0x40⟩)]
theorem test_hyp_performed : ∀ x ∈ performing,
    (inFlight x.1 x.2.1).flight? 60 = some (demoFlight x.1 x.2.1) ∧
    (inFlight x.1 x.2.1).clear (demoFlight x.1 x.2.1) = true ∧ homeOk (inFlight x.1 x.2.1) x.2.2 = true := by
  decide +kernel
/-- Loads of every size for one thread, into registers and into a girt slot of its bent. -/
theorem test_hyp_replies : (∀ n ∈ [1, 2, 4, 8, 16], let s := inFlight (.load ⟨2, 0x40⟩ n true) [.reg 5, .drop]
      s.flight? 60 = some (demoFlight (.load ⟨2, 0x40⟩ n true) [.reg 5, .drop]) ∧ s.thread? 1 = some demo1 ∧
      s.clear (demoFlight (.load ⟨2, 0x40⟩ n true) [.reg 5, .drop]) = true ∧ s.homeOpen ⟨2, 0x40⟩ = true ∧
      s.homeGone ⟨2, 0x40⟩ = false ∧
      (∀ i < n, ((s.shadowOf ((⟨2, 0x40⟩ : Loc).plus i)).read 4 [(4, 1)] (if n = 16 then 16 else 0)).2 = false)) ∧
    ({ demoBent with frames := [demoFrame] } : State).frame? 50 = some demoFrame ∧
    (demoFlight (.load ⟨2, 0x40⟩ 4 false) [.girt 50 0 3 0]).dst = [.girt demoFrame.fid 0 3 0] := by decide +kernel
/-- The reply of an atomic that has been performed: acquired, failed with a spin hint, succeeded. -/
def atomFlight (c : DWord) (m : AtomMod) : Flight :=
  { demoFlight (.atomic ⟨2, 0x40⟩ .cas 7 c m) [.reg 1] with applied := true, reply := [7] }
def replying (c : DWord) (m : AtomMod) : State := { demo with
  input := .id 60, flights := [atomFlight c m], threads := [{ demo1 with wait := .reply 60 }] }
theorem test_hyp_atomic_reply : (∀ m ∈ [(⟨0, false, true, true, 2⟩ : AtomMod), ⟨0, false, false, false, 0⟩],
      ∀ c ∈ [(0 : DWord), 7], (replying c m).flight? 60 = some (atomFlight c m) ∧
        (replying c m).thread? 1 = some { demo1 with wait := .reply 60 }) ∧
    [(7 : Word)].headD 0 ≠ loWord 0 ∧ [(7 : Word)].headD 0 = loWord 7 := by
  refine ⟨?_, by decide, by decide⟩
  intro m hm c hc
  simp only [List.mem_cons, List.not_mem_nil, or_false] at hm hc
  rcases hm with rfl | rfl <;> rcases hc with rfl | rfl <;> exact ⟨rfl, rfl⟩

/-- R95: a name beyond the allotment; a reply still due; neither. -/
def smallAllot : State := { demo with members := [{ demoMember with desc := { demoRec with regs := 1 } }] }
def dueThread : Thread := { demo1 with marks := [(1, 60)] }
theorem test_hyp_checks : smallAllot.curThread? = some demo1 ∧ smallAllot.issueCause demo1 (.add 16 1 2) = some (0x008, 0) ∧
    smallAllot.issueCause demo1 (.mulw 15 1 2) = some (0x009, 0) ∧
    ({ demo with threads := [dueThread] } : State).curThread? = some dueThread ∧
    demo.issueCause dueThread (.add 5 1 2) = none ∧ demo.operandsWait dueThread (.add 5 1 2) = true ∧
    smallAllot.issueCause demo1 (.shfl 16 1 2) = some (0x008, 0) ∧ demo.issueCause demo1 (.shfl 5 1 2) = none ∧
    (let s : State := { demo with threads := [demo1, { demoThread 2 1 with wait := .held 0, join := some 0 },
      { demoThread 3 2 with join := some 0, pc := 1 }] }
    ∃ x ∈ s.threads, s.comesTo x (.shfl 5 1 2) 1 0 = true) ∧
    (∃ x ∈ ({ demo with threads := [demo1, { demoThread 2 1 with marks := [(1, 60)] }] } : State).laneSet demo1 (.shfl 5 1 2),
      demo.operandsWait x (.shfl 5 1 2) = true) := by decide +kernel

/-- R424: a thread in its handler; R419: one with a cause waiting. -/
def busyThread : Thread := { demo1 with busy := true }
theorem test_hyp_trap_entry : ({ demo with threads := [busyThread] } : State).thread? 1 = some busyThread ∧
    ({ demo with threads := [busyThread] } : State).bentOf busyThread = none ∧ demo1.busy = false ∧
    demo.member? busyThread.member = some demoMember ∧
    ({ demo with threads := [pendingThread], input := .id 1 } : State).thread? 1 = some pendingThread ∧
    ({ demo with threads := [pendingThread], input := .id 1 } : State).mayIssue pendingThread = true ∧
    ({ demo with threads := [pendingThread], input := .id 1 } : State).isReady pendingThread = true ∧
    ({ demo with threads := [{ pendingThread with wait := .held 0, join := some 0 }], input := .id 1 } : State).isReady
      { pendingThread with wait := .held 0, join := some 0 } = true ∧
    ({ demoOf [0x3820C105] with threads := [{ pendingThread with marks := [(5, 60)] }], input := .id 1 } : State).isReady
      { pendingThread with marks := [(5, 60)] } = false ∧
    pendingThread.wait = .none ∧ pendingThread.busy = false := by decide

/-- R421: two runs, a stage run inside a guard run. -/
theorem test_hyp_runs : (∀ r ∈ ([⟨false, 0, 32⟩, ⟨true, 7, 1⟩] : List Run), 1 ≤ r.left ∧ r.left ≤ 32 ∧ r.stage < 8 ∧
    (r.stageKind = false → r.stage = 0)) ∧ (⟨true, 7, 1⟩ : Run).left ≤ (⟨false, 0, 32⟩ : Run).left ∧
    runsWord [⟨false, 0, 32⟩, ⟨true, 7, 1⟩] = 0xA0C11C00 := by decide

/-- R422, R446: values MTX takes and values it refuses; R439: a latch that is free and one that is not. -/
theorem test_hyp_trap_registers : (7#32).toNat / 2 ^ 9 % 2 ^ 20 = 0 ∧ (0x200#32).toNat / 2 ^ 9 % 2 ^ 20 ≠ 0 ∧
    xstatOk 0x82000000 false = true ∧ xstatOk 1 false = false ∧ (0x80000000#32).toNat / 2 ^ 20 % 2 ^ 10 = 0 ∧
    (0x100000#32).toNat / 2 ^ 20 % 2 ^ 10 ≠ 0 ∧ (demo.part? 0).map (·.latched) = some none ∧
    (∃ p : Partition, p.latched ≠ none) ∧
    (∃ t : Thread, t.latched = some ⟨0xEC, 0x80, 0, 0, 0, 0, 0, 0⟩ ∧ t.xcause.getLsbD 29 = true ∧
      issuesOk { demo with threads := [t] } t (.fltq 8) = true) := by
  refine ⟨by decide, by decide, by decide, by decide, by decide, by decide, by decide,
    ⟨⟨0, demoCfg, 0, [], demoKv, 0, [], some ⟨0, 0, 0, 0, 0, 0, 0, 0⟩, [], 0⟩, by decide⟩,
    { demo1 with latched := some ⟨0xEC, 0x80, 0, 0, 0, 0, 0, 0⟩, xcause := 0x20000000 }, by decide, by decide, by decide⟩

/-! ## Joint words, the array and the copy engine -/

/-- Both threads of the device with these registers. -/
def withRegs (r : Map 32) : State := { demo with
  threads := [{ demoThread 1 0 with regs := r }, { demoThread 2 1 with regs := r }] }
def thr (r : Map 32) : Thread := { demoThread 1 0 with regs := r }
def thr2 (r : Map 32) : Thread := { demoThread 2 1 with regs := r }

/-- The checks that make a word issue jointly. -/
def jointOk (s : State) (t : Thread) (ts : List Thread) (i : Instr) : Bool :=
  decide (s.curThread? = some t) && (s.issueCause t i).isNone && decide (ts = (s.releaseLabel t.crew t.pc).laneSet t i) &&
    s.jointReady t i

theorem jointly_all {s : State} {t : Thread} {ts : List Thread} {l : List Instr} (h : l.all (jointOk s t ts) = true) :
    ∀ i ∈ l, IssuesJointly s t i ts := by
  intro i hi
  have h := List.all_eq_true.mp h i hi
  simp only [jointOk, Bool.and_eq_true, decide_eq_true_eq] at h
  exact ⟨h.1.1.1, Option.isNone_iff_eq_none.mp h.1.1.2, h.1.2, h.2⟩

theorem test_hyp_cross_lane : ∀ i ∈ [Instr.shfl 5 1 2, .slideDn 0 5 1 2, .slideUp 15 5 1 2, .xred 5 5 1, .xscan 0 5 1],
    IssuesJointly demo demo1 i [demo1, demoThread 2 1] := jointly_all (by decide)

/-- Registers for the array's words: offsets, pitches and a barrier word of 0; a drain's block at v8. -/
def arrayRegs : Map 32 := [(1, 0x3C71), (3, 0x40), (5, 0x80), (7, 0x40), (8, 0xFFFFFF80)]
/-- Two tiles of 8 rows of sixteen 16-bit elements; the array is the crew's. -/
def arrayMember : Member := { demoMember with tcfg := [(0, 0x3C71), (1, 0x3C71)] }
def arrayState (owner : Option Nat) : State := { withRegs arrayRegs with
  members := [arrayMember], cores := [{ Core.fresh 0 with owner := owner }] }

theorem test_hyp_array_words : (∀ i ∈ [Instr.mcfg 7 1 0, .mrdc 5 0, .macq 5, .mrel, .mld 0 3 5, .mst 1 3 5, .mma 0 1,
      .mzero, .shiftout 0, .shiftin 3, .accclr 3, .drainqBf16 0 7 9, .drainqE4m3 1 7 9, .drainqE5m2 1 7 9,
      .drainqE2m1 1 7 9], IssuesJointly (arrayState (some 1)) (thr arrayRegs) i [thr arrayRegs, thr2 arrayRegs]) ∧
    (arrayState (some 1)).member? 1 = some arrayMember ∧ arrayMember.desc.tiles = 8 ∧ arrayMember.desc.acc = 4 ∧
    arrayMember.desc.flags % 2 = 1 ∧ ((arrayState (some 1)).core 0).owner = some ((arrayState (some 1)).crewFor (thr arrayRegs)) ∧
    ((arrayState (some 1)).core 0).mq.length < 8 ∧ ((arrayState none).core 0).owner = none := by
  exact ⟨jointly_all (by decide), by decide, by decide, by decide, by decide, by decide, by decide, by decide⟩

theorem test_hyp_array_causes : mcfgCause arrayMember 7 0x3C71 0 = none ∧ arrayMember.mmaCause 0 1 = none ∧
    (arrayState (some 1)).tileMoveCause arrayMember (thr arrayRegs) 0 3 5 = none ∧
    [DrainFmt.bf16, .e4m3, .e5m2, .e2m1].all (fun f =>
      ((arrayState (some 1)).drainCause arrayMember f 0xFFFFFF8000000040 0xFFFFFF8000000000 0 0).isNone) = true := by
  decide

/-- A command at the head of the matrix queue. -/
def arrayCmd (k : MKind) : MCmd := ⟨70, [1, 2], 1, 1, 0, k, [], []⟩
def queued (k : MKind) : State := { arrayState (some 1) with
  input := .id 70, cores := [{ Core.fresh 0 with owner := some 1, mq := [arrayCmd k] }] }
def demoTile : TileCfg := ⟨0, 0x3C71, 0⟩

theorem test_hyp_array_commands : ∀ k ∈ [MKind.mma demoTile demoTile demoTile demoTile 3, .mzero, .shiftout 0, .shiftin 3,
      .accclr 1, .mld demoTile 0x40 0x80 0, .mst demoTile 0x40 0x80 0x80000100,
      .drainq .bf16 0xFFFFFF8000000040 0 0 0 0],
    (queued k).headCmd 70 = some ({ Core.fresh 0 with owner := some 1, mq := [arrayCmd k] }, arrayCmd k, arrayMember) ∧
    (queued k).core 0 = { Core.fresh 0 with owner := some 1, mq := [arrayCmd k] } ∧
    (queued k).member? 1 = some arrayMember ∧ Map.wf (Core.fresh 0).cells = true ∧ cfgRows demoTile.word0 = 8 := by decide

/-- What the rows of a command come to: all reached, or one with its cause. -/
def reachIs (r : Reach) (n : Nat) (c : Option (Nat × DWord)) : Bool :=
  match r with
  | .rows k x => decide (k = n) && decide (x = c)
  | _ => false

theorem test_hyp_reach : reachIs ((queued (.mld demoTile 0x40 0x80 0)).reach 1
      ((MKind.mld demoTile 0x40 0x80 0).rows (Core.fresh 0) arrayMember) 0) 8 none = true ∧
    reachIs ((queued (.mst demoTile 0x3FFE0 0x80 0)).reach 1
      ((MKind.mst demoTile 0x3FFE0 0x80 0).rows (Core.fresh 0) arrayMember) 0) 1 (some (0x082, 0xFFFFFF8000040060)) = true := by decide

/-- Page tables of partition 0: the page at shared address 0x200000 is frame 4, writable. -/
def pagedMem : Memory := [(0x10000, 1), (0x10002, 2), (0x20000, 1), (0x20002, 3), (0x30100, 7), (0x30102, 4)]
/-- What a check of pieces comes to. -/
def rowOk (r : RowCheck) : Bool :=
  match r with
  | .ok => true
  | _ => false
/-- Every piece of some rows passes. -/
def passOk (s : State) (r : List Piece) : Bool :=
  r.all fun p => match s.checkPiece 1 p with
    | .pass _ _ => true
    | _ => false
theorem pass_of {s : State} {rs : List (List Piece)} (h : rs.all (passOk s) = true) :
    ∀ r ∈ rs, ∀ p ∈ r, ∃ l leaf, s.checkPiece 1 p = .pass l leaf := by
  intro r hr p hp
  have h := List.all_eq_true.mp (List.all_eq_true.mp h r hr) p hp
  split at h
  · rename_i l leaf e
    exact ⟨l, leaf, e⟩
  · cases h
/-- The rows of a command at the head of the queue. -/
def rowsNow (k : MKind) : List (List Piece) :=
  k.rows { Core.fresh 0 with owner := some 1, mq := [arrayCmd k] } arrayMember
/-- Rows that all pass: a load's, a store's, a drain's, those of a store under diversion. -/
theorem test_hyp_rows_pass : ∀ k ∈ [MKind.mld demoTile 0x40 0x80 0, .mst demoTile 0x40 0x80 0x80000100,
      .drainq .bf16 0xFFFFFF8000000040 0 0 0 0, .landing true [(0xFFFFFF8000000040, [1, 2])] 0],
    ∀ r ∈ rowsNow k, ∀ p ∈ r, ∃ l leaf, (queued k).checkPiece 1 p = .pass l leaf := by
  intro k hk
  refine pass_of ?_
  revert k hk
  decide +kernel
/-- A row whose peer is gone, one beyond the scratchpad, one on a page that is not there: the last rows. -/
theorem test_hyp_rows_fail :
    (let k := MKind.drainq .bf16 0xFFFFFF8101000000 0 0 0 0
     rowsNow k = [] ++ (rowsNow k).headD [] :: [] ∧
     (queued k).checkPieces 1 ((rowsNow k).headD []) = .fail 0x083 0xFFFFFF8101000000) ∧
    (let k := MKind.mst demoTile 0x3FFE0 0x80 0x80000100
     rowsNow k = (rowsNow k).take 1 ++ (rowsNow k).getD 1 [] :: (rowsNow k).drop 2 ∧
     ((rowsNow k).take 1).all (passOk (queued k)) = true ∧
     (queued k).checkPieces 1 ((rowsNow k).getD 1 []) = .fail 0x082 0xFFFFFF8000040060) ∧
    (let k := MKind.drainq .bf16 0x210000 0 0 0 0
     rowsNow k = [] ++ (rowsNow k).headD [] :: [] ∧
     ({ queued k with mem := pagedMem } : State).checkPieces 1 ((rowsNow k).headD []) = .wait (.absent 0x21)) := by
  decide +kernel
/-- The tile and the cells that the bytes of a command are stated for. -/
theorem test_hyp_tile_bytes : arrayMember.isReleased = false ∧ arrayMember.desc.scratch ≤ 96 ∧
    cfgRowBytes demoTile.word0 ≤ 128 ∧ Map.wf arrayMember.tiles = true ∧
    0x40 + (cfgRows demoTile.word0 - 1) * 0x80 + cfgRowBytes demoTile.word0 ≤ arrayMember.scratchBytes ∧
    (∀ x < arrayMember.scratchBytes, (((queued (.mld demoTile 0x40 0x80 0)).shadowOf ⟨2, x⟩).read (agentC 70)
      (cmdClock (Core.fresh 0) (arrayCmd (.mld demoTile 0x40 0x80 0))) 0).2 = false) ∧
    (∀ w ∈ (MKind.mst demoTile 0x40 0x80 0).writes (Core.fresh 0) arrayMember,
      (w.1 - localBase).toNat + w.2.length ≤ arrayMember.scratchBytes) ∧
    (∀ w ∈ (MKind.drainq .bf16 0xFFFFFF8000000040 0xFFFFFF8000000000 0 0 0).writes (Core.fresh 0) arrayMember,
      (w.1 - localBase).toNat + w.2.length ≤ arrayMember.scratchBytes) := by
  refine ⟨by decide, by decide, by decide, by decide, by decide, fun x _ => rfl, by decide +kernel, by decide +kernel⟩

/-- A copy of two rows of 16 bytes inside the scratchpad, arriving at the barrier at offset 0x100. -/
def copyRegs : Map 32 := [(1, 0x40), (2, 0xFFFFFF80), (3, 0x800), (4, 0xFFFFFF80), (5, 16), (6, 2), (8, 0x80000100),
  (11, 16), (12, 0x10002), (14, 0x80000100)]
/-- Peer list entry 0 (R44): address 9, endpoint 7, job identifier 1, valid, port 2. -/
def demoPeerBytes : List Byte := 9 :: List.replicate 15 0 ++ [7, 0, 0, 0, 1, 0, 0, 0, 1, 2, 0, 0, 0, 0, 0, 0]
def demoPeer : Peer := ⟨9, 7, 1, true, 2, false⟩
/-- A device whose partition has a peer. -/
def copyState : State := { withRegs copyRegs with
  parts := [⟨0, { demoCfg with peerBytes := demoPeerBytes }, 0x10000, [], demoKv, 0, [], none, [], 0⟩] }

theorem test_hyp_copy_words : (∀ i ∈ [Instr.cpy 3 1 5, .cpym 3 1 11, .cpyaOut 3 3 13, .cpyaIn 0 3 13, .cpynPut 3 1 5,
      .cpynGet 3 1 5, .stadv 9 6], Issues copyState (thr copyRegs) i) ∧
    [Instr.cpy 3 1 5, .cpym 3 1 11, .cpyaOut 3 3 13, .cpynGet 3 1 5].all
      (fun i => copyState.entryReady i (thr copyRegs)) = true ∧
    copyState.member? 1 = some demoMember ∧ demoMember.desc.cqcrew ≠ 0 ∧
    copyState.cpyCause demoMember (thr copyRegs) 3 1 5 = none ∧ copyState.cpymCause demoMember (thr copyRegs) 3 1 11 = none ∧
    copyState.cpyaCause demoMember (thr copyRegs) 3 3 13 = none ∧ copyState.cpyaCause demoMember (thr copyRegs) 0 3 13 = none ∧
    copyState.peerEntry 0 (copyState.shape (thr copyRegs) 5).sel = some demoPeer ∧
    copyState.cpynCause demoMember (thr copyRegs) false 1 5 = none ∧
    copyState.cpynCause demoMember (thr copyRegs) true 1 5 = none := by
  refine ⟨issues_all (by decide), ?_⟩
  decide +kernel

/-- A copy in its crew's queue: two rows of 16 bytes between local offsets 0x40 and 0x800. -/
def demoCopy : Copy where
  id := 80
  uid := 1
  member := 1
  crew := 1
  core := 0
  pc := 0
  kind := .cpy
  dst := 0xFFFFFF8000000800
  src := 0xFFFFFF8000000040
  rowbytes := 16
  rows := 2
  dpitch := 16
  spitch := 16
  arrive := true
  done := false
  joint := none
  ring := none
  offset := 0x100
  shape := 0x80000100
  after := []
  clk := []
  started := false
  slot := none
  moved := []
  rowsDone := 0
  fail := none
  discard := none
  arrived := false
def copying (c : Copy) : State := { demo with input := .id 80, copies := [c] }
/-- A start answers a state. -/
def startsOk (s : State) (c : Copy) : Bool :=
  match s.startCopy c with
  | .ok _ => true
  | .error _ => false

theorem test_hyp_copies : (copying demoCopy).startsNext demoCopy = true ∧ (copying demoCopy).allDone [] = true ∧
    (copying demoCopy).settled [] = true ∧ startsOk (copying demoCopy) demoCopy = true ∧
    startsOk (copying demoCopy) { demoCopy with kind := .acc 1 true } = true ∧
    ((copying demoCopy).copies.find? fun x => x.id == 80) = some demoCopy ∧ CopyKind.cpy.path ≠ .n ∧
    (CopyKind.acc 1 true).path ≠ .n ∧
    ({ demoCopy with started := true, fail := some (0x082, 1, 0x40) } : Copy).fail ≠ none := by decide
/-- A started get whose answer lands in its two rows. -/
def getting : Copy := { demoCopy with kind := .get demoPeer, started := true, rowsDone := 0 }
theorem test_hyp_remote : reachIs ((copying getting).reach 1 ((List.range 2).map fun r =>
      piecesOf true (getting.dst + BitVec.ofNat 64 (r * 16)) 16) 0) 2 none = true ∧
    (∀ d ∈ [none, some (List.replicate 32 (7 : Byte))],
      ({ copying getting with input := .remote 80 d } : State).input = .remote getting.id d ∧
      (({ copying getting with input := .remote 80 d } : State).copies.find? fun x => x.id == 80) = some getting) ∧
    (∀ k ∈ [CopyKind.put demoPeer, .get demoPeer], ({ getting with kind := k } : Copy).kind = k) := by decide +kernel
/-- Where a copy's arrivals go: its scratchpad, device memory; on their way, made, none asked for. -/
theorem test_hyp_arrivals : (targetIs (copying demoCopy) demoMember demoCopy.dst 1 (.scratch demoMember 0x800) = true) ∧
    (targetIs (copying demoCopy) demoMember 0x200000 1 (.shared 0x200000) = true) ∧
    (∃ a ∈ ({ copying { demoCopy with arrived := true } with
      arrivals := [⟨90, 80, 1, ⟨2, 0x100⟩, 32, 32, none, []⟩] } : State).arrivals, a.cmd = demoCopy.id) ∧
    (∀ a ∈ (copying { demoCopy with arrived := true }).arrivals, a.cmd ≠ 80) ∧
    ({ demoCopy with arrive := false } : Copy).arrive = false ∧ demoCopy.arrived = false := by decide +kernel

/-- An extent that is one piece lands at a location. -/
def landOk (s : State) (w : Bool) (a : DWord) (n : Nat) (l : Loc) : Bool :=
  match piecesOf w a n with
  | [p] => decide (s.checkPiece 1 p = .pass l none)
  | _ => false
theorem lands_of {s : State} {w : Bool} {a : DWord} {n : Nat} {l : Loc} (h : landOk s w a n l = true) :
    s.landsAt 1 w a n l := by
  unfold landOk at h
  split at h
  · rename_i p e
    intro pre q rest hq
    rw [e] at hq
    cases pre with
    | nil =>
      simp only [List.nil_append, List.cons.injEq] at hq
      rw [← hq.1, of_decide_eq_true h]
      rfl
    | cons x xs => simp at hq
  · cases h
/-- The rows of a copy land at their places; a CPYA's 64 rows of 256 bytes do. -/
def spread : Copy := { demoCopy with kind := .acc 1 true, rows := 64, rowbytes := 256, dpitch := 256, spitch := 256 }
theorem test_hyp_lands : (∀ r ∈ List.range 2,
      (copying demoCopy).landsAt 1 false (demoCopy.srcRow r) 16 ⟨2, 0x40 + 16 * r⟩ ∧
      (copying demoCopy).landsAt 1 true (demoCopy.dstRow ⟨0, demoCopy.dst⟩ r) 16 ⟨2, 0x800 + 16 * r⟩) ∧
    (∀ r ∈ List.range 64, (copying spread).landsAt 1 true (spread.dstRow ⟨0, spread.dst⟩ r) 256 ⟨2, 0x800 + 256 * r⟩) := by
  have h1 : ∀ r ∈ List.range 2, landOk (copying demoCopy) false (demoCopy.srcRow r) 16 ⟨2, 0x40 + 16 * r⟩ = true ∧
      landOk (copying demoCopy) true (demoCopy.dstRow ⟨0, demoCopy.dst⟩ r) 16 ⟨2, 0x800 + 16 * r⟩ = true := by decide +kernel
  have h2 : ∀ r ∈ List.range 64, landOk (copying spread) true (spread.dstRow ⟨0, spread.dst⟩ r) 256 ⟨2, 0x800 + 256 * r⟩ = true := by
    decide +kernel
  exact ⟨fun r hr => ⟨lands_of (h1 r hr).1, lands_of (h1 r hr).2⟩, fun r hr => lands_of (h2 r hr)⟩
theorem test_hyp_copy_rows : (∀ r ∈ List.range 2,
      rowOk ((copying demoCopy).checkPieces 1 (piecesOf false (demoCopy.srcRow r) 16)) = true ∧
      (∀ d ∈ demoCopy.dests, rowOk ((copying demoCopy).checkPieces 1 (piecesOf true (demoCopy.dstRow d r) 16)) = true ∧
        ∀ j < 16, (copying demoCopy).inSource demoCopy (demoCopy.dstRow d r + BitVec.ofNat 64 j) = false) ∧
      ∀ j < 16, (((copying demoCopy).shadowOf ((⟨2, 0x40 + 16 * r⟩ : Loc).plus j)).read (agentC 80) [] 0).2 = false) ∧
    (demoCopy.dests = [⟨0, demoCopy.dst⟩]) ∧ outside ⟨2, 0x800⟩ 16 [⟨2, 0x810⟩] ∧ Map.wf demoMember.accs = true := by
  refine ⟨by decide +kernel, by decide, ?_, by decide⟩
  intro l hl
  simp only [List.mem_cons, List.not_mem_nil, or_false] at hl
  subst hl
  decide

/-- A static schedule whose first entry has started and whose second is released. -/
def schedMember : Member := { demoMember with
  sched := [⟨0xFFFFFF8000000000, 0xFFFFFF8000000100, 16, 1, 16, 16, 0, 0, true, false, []⟩,
    ⟨0xFFFFFF8000000000, 0xFFFFFF8000000200, 16, 1, 16, 16, 0, 0, false, false, []⟩]
  schedCtr := 2 }
theorem test_hyp_schedule : ({ demo with members := [schedMember], input := .id 1 } : State).member? 1 = some schedMember ∧
    schedMember.nextEntry.map (·.2) = some 1 ∧
    (schedMember.nextEntry.map fun x => schedMember.entryMayStart x.1 x.2) = some true := by decide

/-! ## Barriers, direct accesses, maps, fences and tags -/

/-- Where a barrier lies. -/
def barrierIs (s : State) (m : Member) (a : DWord) (l : Loc) : Bool :=
  match s.barrierLoc m a with
  | .ok x => decide (x = l)
  | .error _ => false
theorem barrier_of {s : State} {m : Member} {a : DWord} {l : Loc} (h : barrierIs s m a l = true) :
    s.barrierLoc m a = .ok l := by
  unfold barrierIs at h
  split at h
  · rename_i y hy
    rw [hy, of_decide_eq_true h]
  · exact absurd h (by decide)

theorem test_hyp_barriers : ∀ i ∈ [Instr.binit 3 1, .bexp 3 1, .barr 3 0, .btest 1 3 1, .bwait 5 3 1, .bwait 0 0 2],
    Issues demo demo1 i ∧ demo.scratchWf ∧ ReachesBarrier (demo.begin demo1 i) demo1 0xFFFFFF8000000040 ⟨2, 0x40⟩ ∧
      demo.addrPair demo1 3 = 0xFFFFFF8000000040 := by
  intro i hi
  refine ⟨issues_all (l := [Instr.binit 3 1, .bexp 3 1, .barr 3 0, .btest 1 3 1, .bwait 5 3 1, .bwait 0 0 2]) (by decide) i hi,
    ?_, ?_, by decide⟩
  · show ∀ m ∈ demo.members, Memory.wf m.scratch = true
    decide
  · have h : ∀ j ∈ [Instr.binit 3 1, .bexp 3 1, .barr 3 0, .btest 1 3 1, .bwait 5 3 1, .bwait 0 0 2],
        (demo.begin demo1 j).member? 1 = some issued1 ∧
        barrierIs (demo.begin demo1 j) issued1 0xFFFFFF8000000040 ⟨2, 0x40⟩ = true ∧
        (demo.begin demo1 j).homeOpen ⟨2, 0x40⟩ = true ∧
        (demo.begin demo1 j).settled ((demo.begin demo1 j).nextClk 1) = true ∧
        (demo.begin demo1 j).allDone (demo1.fenced .t) = true ∧
        (demo.begin demo1 j).meetsError ⟨2, 0x40⟩ 16 = false := by decide
    obtain ⟨h1, h2, h3, h4, h5, h6⟩ := h i hi
    exact ⟨⟨issued1, h1, barrier_of h2⟩, h3, h4, h5, h6⟩

/-- An arrival that is first of its command. -/
def arriving (e : Option Nat) : State := { demo with
  input := .id 90, arrivals := [⟨90, 80, 1, ⟨2, 0x40⟩, 32, 16, e, []⟩] }
theorem test_hyp_arrival : ∀ e ∈ [none, some 0x082],
    ((arriving e).arrivals.find? fun x => x.id == 90) = some ⟨90, 80, 1, ⟨2, 0x40⟩, 32, 16, e, []⟩ ∧
    (∀ x ∈ (arriving e).arrivals, x.cmd = 80 → x.loc = ⟨2, 0x40⟩ → 90 ≤ x.id) ∧
    (arriving e).homeOpen ⟨2, 0x40⟩ = true ∧ (arriving e).member? 1 = some demoMember := by decide
/-- Phases that match the operand and that do not (R305): the barrier's phase is 0, v1 is odd, v2 odd, v3 even. -/
theorem test_hyp_phase : (((demo.begin demo1 (.bwait 5 3 1)).lookBarrier demo1 ⟨2, 0x40⟩).2.status.getLsbD 31,
    (demo.name demo1 1).getLsbD 0, (demo.name demo1 3).getLsbD 0) = (false, true, false) := by decide

/-- A table with two targets at local offset 0x40, its index in v5. -/
def tableMember : Member := { demoMember with scratch := [(0x44, 2)] }
def tableState : State := { demo with members := [tableMember] }
def tableIssued : Member := { tableMember with issue := 1 }
/-- The first two words of the table read. -/
def tableRead (i : Instr) : State := ((((tableState.begin demo1 i).readNow 1 ⟨2, 0x40⟩ 4).1).readNow 1 ⟨2, 0x44⟩ 4).1

/-- A path T access at a location of the scratchpad, its checks passed. -/
def localOk (s : State) (m : Member) (n : Need) (off : Nat) : Bool :=
  targetIs s m n.addr n.size (.scratch m off) && decide (s.check m n = .pass ⟨m.id + 1, off⟩ none)
theorem local_of {s : State} {m : Member} {n : Need} {off : Nat} (h : localOk s m n off = true) :
    PassesLocal s m n ⟨m.id + 1, off⟩ := by
  simp only [localOk, Bool.and_eq_true, decide_eq_true_eq] at h
  exact ⟨⟨m, off, target_of h.1⟩, h.2⟩
/-- A thread that may make an access at once. -/
def mayOk (s : State) (t : Thread) (m : Member) : Bool :=
  decide (s.member? t.member = some m) && decide (m.st = .running) && m.divert.isNone && s.allDone (t.fenced .t) &&
    s.settled (s.nextClk t.uid)
theorem may_of {s : State} {t : Thread} {m : Member} (op : MemOp) (h : mayOk s t m = true) : MayAccess s t m op := by
  simp only [mayOk, Bool.and_eq_true, decide_eq_true_eq] at h
  exact ⟨h.1.1.1.1, h.1.1.1.2, Option.isNone_iff_eq_none.mp h.1.1.2, h.1.2, .inr h.2⟩

theorem test_hyp_tables : ∀ i ∈ [Instr.bi 3 5, .calli 3 5], Issues tableState demo1 i ∧
    MayAccess (tableState.begin demo1 i) demo1 tableIssued (.table 0xFFFFFF8000000040 0 (i == .calli 3 5)) ∧
    PassesLocal (tableState.begin demo1 i) tableIssued ⟨0xFFFFFF8000000040, 4, false, false⟩ ⟨2, 0x40⟩ ∧
    PassesLocal (tableState.begin demo1 i) tableIssued ⟨0xFFFFFF8000000044, 4, false, false⟩ ⟨2, 0x44⟩ ∧
    (0#32).toNat < (((tableState.begin demo1 i).readNow 1 ⟨2, 0x40⟩ 4).1.readNow 1 ⟨2, 0x44⟩ 4).2 ∧
    PassesLocal (tableRead i) tableIssued ⟨0xFFFFFF8000000048, 4, false, false⟩ ⟨2, 0x48⟩ := by
  have h : ∀ i ∈ [Instr.bi 3 5, .calli 3 5], issuesOk tableState demo1 i = true ∧
      mayOk (tableState.begin demo1 i) demo1 tableIssued = true ∧
      localOk (tableState.begin demo1 i) tableIssued ⟨0xFFFFFF8000000040, 4, false, false⟩ 0x40 = true ∧
      localOk (tableState.begin demo1 i) tableIssued ⟨0xFFFFFF8000000044, 4, false, false⟩ 0x44 = true ∧
      (0#32).toNat < (((tableState.begin demo1 i).readNow 1 ⟨2, 0x40⟩ 4).1.readNow 1 ⟨2, 0x44⟩ 4).2 ∧
      localOk (tableRead i) tableIssued ⟨0xFFFFFF8000000048, 4, false, false⟩ 0x48 = true := by decide
  intro i hi
  obtain ⟨h1, h2, h3, h4, h5, h6⟩ := h i hi
  exact ⟨issues_of h1, may_of _ h2, local_of h3, local_of h4, h5, local_of h6⟩
/-- The index check (R142): no target at all, and an address that is not aligned. -/
theorem test_hyp_table_edges : (((demo.begin demo1 (.bi 3 5)).readNow 1 ⟨2, 0x44⟩ 4).2 ≤ (0#32).toNat) ∧
    (demo.addrPair demo1 1).toNat % 4 ≠ 0 ∧ (demo.addrPair demo1 3).toNat % 4 = 0 ∧
    issuesOk demo demo1 (.bi 1 5) = true := by decide

theorem test_hyp_direct : ∀ i ∈ [Instr.mmovW 3 0, .mswpW 3 0, .monitor 5 3], Issues demo demo1 i ∧
    (∀ op, MayAccess (demo.begin demo1 i) demo1 issued1 op) ∧
    PassesLocal (demo.begin demo1 i) issued1 ⟨0xFFFFFF8000000040, 4, true, false⟩ ⟨2, 0x40⟩ ∧
    PassesLocal (demo.begin demo1 i) issued1 ⟨0xFFFFFF8000000040, 4, false, false⟩ ⟨2, 0x40⟩ ∧
    PassesLocal (demo.begin demo1 i) issued1 ⟨0xFFFFFF8000000000, 4, true, false⟩ ⟨2, 0⟩ ∧
    PassesLocal (demo.begin demo1 i) issued1 ⟨0xFFFFFF8000000000, 4, false, false⟩ ⟨2, 0⟩ := by
  have h : ∀ i ∈ [Instr.mmovW 3 0, .mswpW 3 0, .monitor 5 3], issuesOk demo demo1 i = true ∧
      mayOk (demo.begin demo1 i) demo1 issued1 = true ∧
      localOk (demo.begin demo1 i) issued1 ⟨0xFFFFFF8000000040, 4, true, false⟩ 0x40 = true ∧
      localOk (demo.begin demo1 i) issued1 ⟨0xFFFFFF8000000040, 4, false, false⟩ 0x40 = true ∧
      localOk (demo.begin demo1 i) issued1 ⟨0xFFFFFF8000000000, 4, true, false⟩ 0 = true ∧
      localOk (demo.begin demo1 i) issued1 ⟨0xFFFFFF8000000000, 4, false, false⟩ 0 = true := by decide
  intro i hi
  obtain ⟨h1, h2, h3, h4, h5, h6⟩ := h i hi
  exact ⟨issues_of h1, fun _ => may_of _ h2, local_of h3, local_of h4, local_of h5, local_of h6⟩

/-- MWAITM with no monitor, with a hit, and with none. -/
theorem test_hyp_monitors : ∀ k ∈ [none, some (⟨⟨2, 0x40⟩, true⟩ : Monitor), some ⟨⟨2, 0x40⟩, false⟩],
    Issues { demo with threads := [{ demo1 with monitor := k }] } { demo1 with monitor := k } (.mwaitm 5 1) := by
  intro k hk
  refine issues_of ?_
  revert k hk
  decide
theorem test_hyp_now : (∀ i < 4, (demo.shadowOf ((⟨2, 0x40⟩ : Loc).plus i)).raced = false ∧
      (demo.shadowOf ((⟨2, 0x40⟩ : Loc).plus i)).writes = []) ∧ Memory.wf demo.mem = true ∧
    (∃ m, demo.member? m.id = some m ∧ (⟨2, 0x40⟩ : Loc).space = m.id + 1) :=
  ⟨by decide, by decide, demoMember, by decide, by decide⟩

/-- The access that started a fill: a load of the first thread. -/
def demoFiller : Filler := ⟨0, 4, [(4, 1)], 0, 0, .t⟩
/-- A region of one unit at local offset 0, its line 0 in a state. -/
def mapMember (base : DWord) (lines : List (Nat × Line)) : Member := { demoMember with
  regions := [⟨0, 1, base, true, lines, [], []⟩] }
def mapped (base : DWord) (lines : List (Nat × Line)) (poison : List Nat) : State := { demo with
  mem := pagedMem, poison := poison, members := [mapMember base lines], input := .line 1 0 }

theorem test_hyp_prefetch : Issues demo demo1 (.prfm 2 3 0) ∧ (∃ c, demo.target demoMember 0x300000007 64 = .error c) ∧
    targetIs (mapped 0x200000 [] []) (mapMember 0x200000 []) 0xFFFFFF8000000040 64
      (.scratch (mapMember 0x200000 []) 0x40) = true ∧
    (mapped 0x200000 [] []).check (mapMember 0x200000 []) ⟨0xFFFFFF8000000040, 64, false, false⟩ = .fill 1 0 0 ∧
    (∀ i ∈ [Instr.aptest 5 3, .apcvtOff 5 3, .apcvtLoc 0 3, .apcvtClu 5 3], Issues demo demo1 i) := by
  refine ⟨issues_of (by decide), ⟨0x081, ?_⟩, by decide, by decide, issues_all (by decide)⟩
  have h : (match demo.target demoMember 0x300000007 64 with | .error c => c == 0x081 | .ok _ => false) = true := by decide
  revert h
  cases demo.target demoMember 0x300000007 64 with
  | error c =>
    intro h
    rw [of_decide_eq_true (p := c = 0x081) (by simpa using h)]
  | ok x =>
    intro h
    cases h

/-- R228: one unit of the shared range at local offset 0 in v3, its configuration in v4. -/
def mapRegs : Map 32 := [(1, 0x200000), (4, 1), (5, 0x1000)]
theorem test_hyp_mapset : Issues (withRegs mapRegs) (thr mapRegs) (.mapset 4 1 3) ∧
    ((withRegs mapRegs).pair (thr mapRegs) 1, (withRegs mapRegs).name (thr mapRegs) 3, (withRegs mapRegs).name (thr mapRegs) 4) =
      (0x200000, 0, 1) ∧
    inRanges ((withRegs mapRegs).rangesOf 0) 0x200000 65536 = true ∧ demoMember.regions.length < 16 ∧
    (withRegs mapRegs).inbound demoMember 0 65536 = false := ⟨issues_of (by decide), by decide, by decide, by decide, by decide⟩
theorem test_hyp_map_words : (∀ i ∈ [Instr.maprel 3, .mapflush 3, .mapfill 3 0, .mapfill 3 5],
      Issues (withRegs mapRegs) (thr mapRegs) i) ∧ (∀ r ∈ demoMember.regions, r.off ≠ 0) ∧
    ((mapMember 0x200000 []).regions.find? fun r => r.off == 0) = some ⟨0, 1, 0x200000, true, [], [], []⟩ ∧
    (⟨0, 1, 0x200000, true, [], [], []⟩ : Region).marked = [] ∧
    (∀ s : State, ∀ a c m r, s.writeBack a c 0 0 false m r [] = (s, none)) ∧
    (mapMember 0x200000 []).regionAt 0 = some ⟨0, 1, 0x200000, true, [], [], []⟩ ∧ 0 + 0x1000 ≤ 0 + 1 * 65536 :=
  ⟨issues_all (by decide), by decide, by decide, by decide, fun _ _ _ _ _ => rfl, by decide, by decide⟩

/-- A fill that translates, one that meets poison, one whose page is outside the ranges. -/
theorem test_hyp_fills : ((mapped 0x200000 [(0, .filling demoFiller)] []).fillingLine 1 0).map (fun x => (x.2.2.1, x.2.2.2)) =
      some (0, demoFiller) ∧
    (mapped 0x200000 [(0, .filling demoFiller)] []).checkFill (mapMember 0x200000 [(0, .filling demoFiller)])
      ⟨0, 1, 0x200000, true, [(0, .filling demoFiller)], [], []⟩ 0 = .pass ⟨0, 0x40000⟩ (some 0x30100) ∧
    (mapped 0x200000 [(0, .filling demoFiller)] []).settled (Clock.join [] []) = true ∧
    (mapped 0x200000 [(0, .filling demoFiller)] [0x40]).checkFill (mapMember 0x200000 [(0, .filling demoFiller)])
      ⟨0, 1, 0x200000, true, [(0, .filling demoFiller)], [], []⟩ 0 = .deny 0x087 0x200000 ∧
    (mapped 0x900000 [(0, .filling demoFiller)] []).checkFill (mapMember 0x900000 [(0, .filling demoFiller)])
      ⟨0, 1, 0x900000, true, [(0, .filling demoFiller)], [], []⟩ 0 = .absent 0x90 ∧
    (mapped 0x900000 [(0, .filling demoFiller)] []).pageInRanges 0 0x90 = false ∧
    (mapped 0x900000 [(0, .filling demoFiller)] []).threads.all (fun t =>
      !(mapped 0x900000 [(0, .filling demoFiller)] []).trapHeld t.uid) = true := by decide +kernel

/-- A tag barrier that has released generation 3 and holds two of two arrivals; one with nothing yet. -/
def demoTag : TagBarrier := ⟨0, 1, 2, 4, some 2, 2, [0], 0, some 3, [], []⟩
def tagged (b : TagBarrier) (clock : DWord) : State := { demo with
  clock := clock, tags := [b], input := .tag 0 1 2
  tagArrivals := [⟨95, 0, 1, 2, 2, 1, 0, [1], none, true, false, []⟩] }
theorem test_hyp_tag_barriers : (∀ i ∈ [Instr.tbarw 2 2, .tbarwP 2 2], Issues (tagged demoTag 0) demo1 i) ∧
    (tagged demoTag 0).tagBarrier 0 1 2 = demoTag ∧ demoTag.released = some 3 ∧ (3 + 65536 - 3) % 65536 < 32768 ∧
    32768 ≤ (3 + 65536 - 7) % 65536 ∧ (tagged demoTag 0).member? 1 = some demoMember ∧
    ((tagged demoTag 0).tagArrivals.find? fun x => x.id == 95) = some ⟨95, 0, 1, 2, 2, 1, 0, [1], none, true, false, []⟩ ∧
    (tagged { demoTag with arrived := 1 } 0).settled [] = true ∧
    (tagged { demoTag with arrived := 1 } 0).trapHeld 1 = false ∧ (tagged demoTag 0).thread? 1 = some demo1 ∧ ({ demoTag with arrived := 1 } : TagBarrier).arrived < 2 ∧
    demoTag.count = some 2 ∧ 2 ≤ demoTag.arrived ∧ (63#64).toNat < demoTag.lastAt.toNat + 64 ∧
    demoTag.lastAt.toNat + 64 ≤ (64#64).toNat ∧
    ({ tagged demoTag 64 with threads := [{ demo1 with wait := .tag 2 4 false }] } : State).threads.filter
      (demo.waitsOnTag { demoTag with released := some 4 }) = [{ demo1 with wait := .tag 2 4 false }] := by
  refine ⟨issues_all (by decide), ?_⟩
  decide

/-- The arrival of a TBARA, whose number goes to v5 and which does not wait. -/
def numbered : TagArrival := ⟨95, 0, 1, 2, 2, 1, 0, [1], some [.reg 5], false, false, []⟩
def taggedBy (a : TagArrival) : State := { tagged { demoTag with arrived := 1 } 0 with
  tagArrivals := [a], input := .id 95, threads := [{ demo1 with wait := .reply 95 }, demoThread 2 1] }
theorem test_hyp_numbered : ((taggedBy numbered).tagArrivals.find? fun x => x.id == 95) = some numbered ∧
    (taggedBy numbered).settled numbered.clk = true ∧ (taggedBy numbered).trapHeld 1 = false ∧
    (taggedBy numbered).member? 1 = some demoMember ∧ (taggedBy numbered).tagBarrier 0 1 2 = { demoTag with arrived := 1 } ∧
    numbered.dst = some [.reg 5] := by decide

/-! ## Rings -/

/-- Ring 1: two slots of 256 bytes at 0x400, its slots in some states. -/
def demoRing (a b : RingSlot) (copyProd outfeed : Bool) : Ring :=
  ⟨1, 0x20001, 0x400, 256, copyProd, false, outfeed, [(a, []), (b, [])], [], [], 0, 1⟩
def ringMember (r : Ring) : Member := { demoMember with rings := [r] }
/-- A RINGSUB block in v5: ring 1, base 0x800, tiles of one row of 256 bytes at 0x200000, two of them. -/
def ringRegs : Map 32 := [(1, 0x400), (2, 0x500), (5, 0x20001), (6, 0x800), (7, 0x200000), (9, 256), (10, 1), (11, 4), (12, 2),
  (13, 0x20000), (14, 0x8000), (15, 0x40001)]
def ringState (r : Ring) : State := { withRegs ringRegs with members := [ringMember r], mem := pagedMem }

theorem test_hyp_ring_words : (∀ i ∈ [Instr.ringpushClaim 20 1, .ringpushFill 1 1, .ringpopTake 20 1, .ringpopFree 1 2,
      .ringq 20 1 0, .ringq 20 1 3], Issues (ringState (demoRing .free .filled false false)) (thr ringRegs) i) ∧
    (1#4).toNat < (ringMember (demoRing .free .filled false false)).desc.rings ∧
    (ringMember (demoRing .free .filled false false)).ring? 1 = some (demoRing .free .filled false false) ∧
    (demoRing .free .filled false false).slotState 0 = .free ∧ (demoRing .free .filled false false).slotState 1 = .filled ∧
    (ringState (demoRing .free .filled false false)).lowerWaits (thr ringRegs) = false ∧
    (ringState (demoRing .free .filled false false)).lowerWaits (thr2 ringRegs) = true ∧
    (demoRing .claimed .held false false).slotAt 0x400 .claimed = some 0 ∧
    (demoRing .claimed .held false false).slotAt 0x500 .held = some 1 ∧
    (∀ i ∈ [Instr.ringpushFill 1 1, .ringpopFree 1 2],
      let s1 := (ringState (demoRing .claimed .held false false)).begin (thr ringRegs) i
      s1.lowerWaits (thr ringRegs) = false ∧ s1.lowerWaits (thr2 ringRegs) = true ∧ s1.settled (s1.nextClk 1) = true ∧
        s1.allDone ((thr ringRegs).fenced .t) = true) ∧
    (ringState (demoRing .claimed .held false false)).slotBusy (thr ringRegs)
      (ringMember (demoRing .claimed .held false false)) 0x500 256 = false := by
  refine ⟨issues_all (by decide), ?_⟩
  decide
theorem test_hyp_ring_causes : (∀ i ∈ [Instr.ringpushClaim 20 9, .ringpushFill 9 1, .ringpopTake 2 2, .ringpopFree 2 1],
      Issues (ringState (demoRing .free .filled false false)) (thr ringRegs) i) ∧
    (ringMember (demoRing .free .filled false false)).desc.rings ≤ (9#4).toNat ∧
    (ringMember (demoRing .free .filled false false)).ring? 2 = none ∧
    (∀ j, j ≠ 0 → (demoRing .claimed .free false false).slotState j ≠ .claimed) ∧
    (∀ j, j ≠ 1 → (demoRing .free .held false false).slotState j ≠ .held) := by
  refine ⟨issues_all (by decide), by decide, by decide, ?_, ?_⟩
  · intro j hj
    match j with
    | 0 => exact absurd rfl hj
    | 1 => decide
    | n + 2 => simp [demoRing, Ring.slotState]
  · intro j hj
    match j with
    | 0 => decide
    | 1 => exact absurd rfl hj
    | n + 2 => simp [demoRing, Ring.slotState]

/-- A ring of the wrong side (R326): copies or infeed produce, outfeed consumes; slots that are not ready; an offset that
names no slot in the state. -/
theorem test_hyp_ring_sides : (∀ r ∈ [demoRing .free .filled true true,
      { demoRing .free .filled false true with infeed := true }], ∀ i ∈ [Instr.ringpushClaim 20 1, .ringpushFill 1 1,
      .ringpopTake 20 1, .ringpopFree 1 2], Issues (ringState r) (thr ringRegs) i) ∧
    (∀ r ∈ [demoRing .free .filled true true, { demoRing .free .filled false true with infeed := true }],
      (ringMember r).ring? 1 = some r ∧ (r.copyProd = true ∨ r.infeed = true) ∧ r.outfeed = true) ∧
    (∀ i ∈ [Instr.ringpushClaim 20 1, .ringpushFill 1 1, .ringpopTake 20 1, .ringpopFree 1 2],
      Issues (ringState (demoRing .held .claimed false false)) (thr ringRegs) i) ∧
    (demoRing .held .claimed false false).slotState 0 ≠ .free ∧ (demoRing .held .claimed false false).slotState 1 ≠ .filled ∧
    (∀ k < 2, 0x400 + k * 256 = 0x400 → (demoRing .held .claimed false false).slotState k ≠ .claimed) ∧
    (∀ k < 2, 0x400 + k * 256 = 0x500 → (demoRing .held .claimed false false).slotState k ≠ .held) ∧
    (∀ i ∈ [Instr.ringq 20 9 0, .ringq 20 2 1], Issues (ringState (demoRing .free .filled false false)) (thr ringRegs) i) := by
  refine ⟨?_, by decide, issues_all (by decide), by decide, by decide, by decide, by decide, issues_all (by decide)⟩
  intro r hr
  simp only [List.mem_cons, List.not_mem_nil, or_false] at hr
  rcases hr with rfl | rfl <;> exact issues_all (by decide)

/-- RINGSUB: good blocks, a clearing word in v13, a reserved bit in v14, ring 2 in v15 beside the others. -/
theorem test_hyp_ringsub : (∀ i ∈ [Instr.ringsub 20 5, .ringsubIn 20 5, .ringsubOut 20 5, .ringsub 20 13, .ringsub 20 14],
      Issues { ringState (demoRing .free .free false false) with members := [demoMember] } (thr ringRegs) i) ∧
    cfgReservedOk 0x20001 = true ∧ cfgRing 0x20001 < demoMember.desc.rings ∧ cfgClears 0x20001 = false ∧
    cfgClears 0x20000 = true ∧ cfgReservedOk 0x8000 = false ∧ cfgReservedOk 0x120001 = true ∧
    demoMember.desc.rings ≤ cfgRing 0x120001 ∧
    ([RingForm.threads, .infeed, .outfeed].all fun f =>
      !demoMember.ringsubBad f 0x20001 0x800 ⟨0x200000, 256, 1, 256, 256, 2⟩ && decide
        (({ ringState (demoRing .free .free false false) with members := [demoMember] } : State).ringsubStatus demoMember f
          0x20001 ⟨0x200000, 256, 1, 256, 256, 2⟩ = some 0)) = true ∧
    demoMember.ringsubBad .threads 0x20001 0x801 ⟨0x200000, 256, 1, 256, 256, 2⟩ = true ∧
    demo.ringsubStatus demoMember .infeed 0x20001 ⟨0x900000, 256, 1, 256, 256, 2⟩ = some 3 ∧
    (ringState (demoRing .free .filled false false)).ringsubStatus (ringMember (demoRing .free .filled false false)) .threads
      0x20001 ⟨0, 0, 0, 0, 0, 0⟩ = some 1 ∧
    (withRegs ringRegs).tileBlock (thr ringRegs) 5 = ⟨0x200000, 256, 1, 256, 256, 2⟩ := by
  refine ⟨issues_all (by decide), ?_⟩
  decide

/-- A subscription of two tiles on ring 1, its page on stack 4. -/
def demoSub (infeed : Bool) (stack : Nat) : Sub := ⟨96, 1, 1, 1, 1, infeed, stack, 0x200000, 256, 1, 256, 256, 2, 0, [], []⟩
def feeding (infeed : Bool) (stack : Nat) : State := { ringState (demoRing .free .filled false false) with
  input := .id 96, subs := [demoSub infeed stack] }
theorem test_hyp_tiles : [true, false].all (fun d =>
    decide (((feeding d 4).subs.find? fun y => y.id == 96) = some (demoSub d 4)) &&
    (feeding d 4).allDone [] && (feeding d 4).settled [] &&
    reachIs ((feeding d 4).tileReach (demoSub d 4) 0 ((demoSub d 4).rowPieces (0x400 + (if d then 0 else 1) * 256)) 0) 1 none &&
    reachIs ((feeding d 5).tileReach (demoSub d 5) 0 ((demoSub d 5).rowPieces (0x400 + (if d then 0 else 1) * 256)) 0) 0
      (some (0, 0x200000))) = true := by decide

/-! ## Work created, the KV unit and the sieve -/

/-- v1: a width or a template, v5: a block of handles, offset and count; v9 a value with bit 31; v10 an offset. -/
def workRegs : Map 32 := [(1, 7), (2, 3), (5, 0xFFFFFFFF), (6, 0xFFFFFFFF), (7, 0xFFFFFFFF), (8, 2), (9, 0x80000000), (11, 0xFFFFFFFF),
  (12, 0xFFFFFFFF), (13, 0x100), (14, 256), (16, 0xFFFFFFFF), (17, 0xFFFFFFFF), (19, 257)]
def workState : State := withRegs workRegs
theorem test_hyp_work : (∀ i ∈ [Instr.spawn 20 1 2, .spawn 20 1 1, .spawn 20 1 9, .jnew 20 1, .jnew 20 9, .jdec 20 5 1, .jdec 20 5 9,
      .ycancel 20 0, .ycancel 20 1, .yput 20 1 5, .yput 20 1 11, .yput 20 1 16], Issues workState (thr workRegs) i) ∧
    (∀ i ∈ [Instr.spawn 20 1 2, .jdec 20 5 1, .yput 20 1 5], (workState.begin (thr workRegs) i).caughtUp (thr workRegs) = true) ∧
    (workState.begin (thr workRegs) (.spawn 20 1 2)).member? 1 = some issued1 ∧
    workState.marked 0 1 0 = false ∧ ({ workState with marks := [⟨0, 1, 0⟩] } : State).marked 0 1 0 = true ∧
    workState.canMakeCrew demoMember = true ∧ (3#32).toNat ≤ workState.poolFree demoMember ∧
    ({ workState with members := [{ demoMember with desc := { demoRec with spcrews := 0 } }] } : State).canMakeCrew
      { demoMember with desc := { demoRec with spcrews := 0 } } = false ∧ workState.poolFree demoMember < 64 ∧
    (∃ i < 262144, ∀ c ∈ workState.counters, c.sect = 0 → c.index ≠ i) := by
  refine ⟨issues_all (by decide), by decide, by decide, by decide, by decide, by decide, by decide, by decide, by decide,
    0, by decide, by decide⟩

/-- A section without a free counter. -/
def fullCounters : State := { workState with counters := (List.range 262144).map fun i => ⟨0, 0, i, 0, 0, [], none, []⟩ }
theorem test_hyp_counters_full : ∀ i < 262144, ∃ c ∈ fullCounters.counters, c.sect = 0 ∧ c.index = i := by
  intro i hi
  refine ⟨⟨0, 0, i, 0, 0, [], none, []⟩, ?_, rfl, rfl⟩
  simp only [fullCounters, List.mem_map, List.mem_range]
  exact ⟨i, hi, rfl⟩
theorem test_hyp_yput : (workState.name (thr workRegs) 8, workState.name (thr workRegs) 14, workState.name (thr workRegs) 19) =
      (2, 256, 257) ∧ rowOk (workState.argsCheck demoMember 0xFFFFFFFF) = true ∧
    rowOk (workState.argsCheck demoMember 0x100) = true ∧ (∃ p, workState.part? demoMember.part = some p) ∧
    (∀ c ∈ workState.counters, c.handle ≠ 5) := by
  refine ⟨by decide, by decide, by decide, ⟨_, rfl⟩, by decide⟩

/-- v5: a sequence, a window or layer and head, drafts or a block, a count; v10: C, its offset and size. -/
def kvRegs : Map 32 := [(5, 1), (6, 1), (7, 2), (8, 1), (10, 2), (11, 3), (15, 1), (16, 1), (17, 0x200000), (19, 0x100), (20, 16),
  (22, 1), (24, 0xFFFFFFFF)]
def kvState : State := { withRegs kvRegs with mem := pagedMem }
theorem test_hyp_kv_words : (∀ i ∈ [Instr.kvlook 30 5, .kvalloc 30 5, .kvfree 30 5, .kvfree 30 22, .kvshare 30 5 10, .dfopen 30 5,
      .dfdrop 30 5, .dfq 30 5, .dfmark 30 15], Issues kvState (thr kvRegs) i) ∧
    kvState.pool? demoMember.part = some ⟨4, 0x300000, 0x340000, 8⟩ ∧ (1#32).toNat < 8 ∧
    demoMember.desc.flags.testBit 1 = true ∧ (kvState.markArgs (thr kvRegs) 15).bad ⟨4, 0x300000, 0x340000, 8⟩ demoMember = none ∧
    rowOk (kvState.markChunks demoMember (kvState.markArgs (thr kvRegs) 15)) = true ∧
    demoMember.markBad 0x100 (16 * 16) = false ∧ ({ demo with parts := [] } : State).pool? 0 = none ∧
    issuesOk { demo with parts := [] } demo1 (.kvlook 30 5) = true := by
  refine ⟨issues_all (by decide), ?_⟩
  decide

/-- A live sequence of tenant 1 with one resident page, and a page of it in the far pool. -/
def demoSeq : Seq := ⟨1, 1, true, false, false, 64, 0, none, 0, 1, 0, 1, []⟩
def demoKey (block : Nat) : KvKey := ⟨1, 0, 0, block⟩
def demoEntry (resident transit : Bool) : KvEntry :=
  ⟨2, demoKey 0, 1, true, resident, transit, false, false, false, 64, 1, 0, none, 5, true⟩
def farEntry : KvEntry := { demoEntry true true with key := demoKey 1, page := 0 }
def demoUnit (e : KvEntry) : KvUnit := ⟨[demoSeq], [e], [], [], [⟨farEntry, [], [], []⟩], [], []⟩
def kvPart (u : KvUnit) : Partition := ⟨0, demoCfg, 0x10000, [], u, 0, [], none, [], 0⟩
/-- A KV request under way, the event's input its number. -/
def kvAsk (u : KvUnit) (r : KvReq) : State := { inFlight (.kv r) [.reg 5] with parts := [kvPart u] }

theorem test_hyp_kv_steps : ∀ r ∈ [KvReq.look (demoKey 0), .alloc (demoKey 3) 1 false 0, .free (demoKey 0), .freeAll 1, .share 2 1 1,
      .dfopen 1 1 2, .dfdrop 1 1, .dfq 1],
    (kvAsk (demoUnit (demoEntry true false)) r).flight? 60 = some (demoFlight (.kv r) [.reg 5]) ∧
    (kvAsk (demoUnit (demoEntry true false)) r).part? 0 = some (kvPart (demoUnit (demoEntry true false))) ∧
    (demoUnit (demoEntry true false)).waits 4 1 1 r = false ∧
    (kvAsk (demoUnit (demoEntry true false)) r).clear (demoFlight (.kv r) [.reg 5]) = true := by decide +kernel
/-- What a lookup of an opened window comes to. -/
def opened (u : KvUnit) (member q w : Nat) : Option Window :=
  match u.openedBy member q w with
  | .ok x => some x
  | .error _ => none
theorem test_hyp_kv_keep : opened { demoUnit (demoEntry true false) with windows := [⟨1, 3, 1, 64, 2, [], []⟩] } 1 1 3 =
      some ⟨1, 3, 1, 64, 2, [], []⟩ ∧ (0 : Nat) ≤ 2 ∧
    ((demoUnit (demoEntry true false)).seq 1).poisoned = false ∧
    (demoUnit (demoEntry true false)).waits 4 1 1 (.dfkeep 1 3 1) = false ∧
    rowOk (demo.checkPieces 1 (⟨1, 3, 1, 64, 2, [], []⟩ : Window).targets.flatten) = true := by decide +kernel
/-- A keep of one draft whose copy goes to C at 0x200000, its slot broken or not; a poisoned sequence. -/
def keepState (b : List Loc) : State := { kvAsk { demoUnit (demoEntry true false) with
    windows := [⟨1, 3, 1, 64, 2, [(0x200000, 0x100, 16)], []⟩] } (.dfkeep 1 3 1) with mem := pagedMem, broken := b }
def keepRun (b : List Loc) : Option DWord :=
  let f := demoFlight (.kv (.dfkeep 1 3 1)) [.reg 5]
  (((keepState b).tickFor f).1.promoteMarks f ((keepState b).tickFor f).2 demoMember 1 [(0x200000, 0x100, 16)]).2
theorem test_hyp_kv_copies : keepRun [] = none ∧ keepRun [⟨2, 0x104⟩] = some 0xFFFFFF8000000100 ∧
    rowOk ({ keepState [⟨2, 0x104⟩] with broken := [] }.checkPieces 1
      (⟨1, 3, 1, 64, 2, [(0x200000, 0x100, 16)], []⟩ : Window).targets.flatten) = true ∧
    (({ demoUnit (demoEntry true false) with seqs := [{ demoSeq with poisoned := true }] } : KvUnit).seq 1).poisoned =
      true := by decide +kernel
/-- The words of a reply. -/
def repliesWith (x : KvUnit × KvReply) (ws : List Word) : Bool :=
  match x.2 with
  | .words v => decide (v = ws)
  | .trap _ _ => false
theorem test_hyp_kv_answers : (((demoUnit (demoEntry true false)).seq 5).live = false) ∧
    (((demoUnit (demoEntry true false)).place 4 { demoEntry true false with key := demoKey 7 }).isSome = true) ∧
    repliesWith ((demoUnit (demoEntry true false)).freeAll 4 1 1) [0] = true ∧
    repliesWith ((demoUnit (demoEntry true false)).dfopen 1 1 1 1 2) [0] = true := by decide +kernel
theorem test_hyp_kv_pages : (demoUnit (demoEntry true false)).entry? 2 = some (demoEntry true false) ∧
    (demoEntry true false).provisional = false ∧ (demoEntry true false).poisoned = false ∧ (demoEntry true false).refs ≠ 0 ∧
    (demoEntry true false).wcount < 0xFFFFFFFF ∧ (demoUnit (demoEntry true true)).entry? 2 = some (demoEntry true true) ∧
    (demoUnit (demoEntry true false)).far? (demoKey 1) = some ⟨farEntry, [], [], []⟩ ∧
    (demoUnit (demoEntry true false)).lookup 4 (demoKey 1) = none ∧
    (kvAsk (demoUnit (demoEntry true false)) (.look (demoKey 1))).kvAsked 0 (demoUnit (demoEntry true false)) (demoKey 1) = true ∧
    ((demoUnit (demoEntry true false)).place 4 { farEntry with resident := false, transit := true }).isSome = true ∧
    ((demoUnit { farEntry with resident := false }).lookup 4 (demoKey 1)).map (fun e => (e.resident, e.transit)) =
      some (false, true) := by decide +kernel

/-- v5: SIEVE's block: a list of one entry at 0x100, its bitmap at 0x300. -/
def sieveRegs : Map 32 := [(5, 0x100), (6, 1), (8, 0x300)]
def sieveMember : Member := { tinyMember 1 192 { demoRec with cls := 1 } with acct := 7, ep := 5 }
def sieveThread (uid lane : Nat) : Thread := { demoThread uid lane with core := 192, regs := sieveRegs }
def sieveState (q : List SCmd) : State := { demo with
  members := [sieveMember], threads := [sieveThread 1 0, sieveThread 2 1], crews := [⟨1, 192, 0, 0, 1, 4, none, true, []⟩]
  parts := [kvPart (demoUnit (demoEntry true false))], cores := [{ Core.fresh 192 with sq := q }], input := .id 71 }
theorem test_hyp_sieve_words : (∀ i ∈ [Instr.skset 3 5, .sieve 0 5],
      IssuesJointly (sieveState []) (sieveThread 1 0) i [sieveThread 1 0, sieveThread 2 1]) ∧
    (sieveState []).pool? 0 = some ⟨4, 0x300000, 0x340000, 8⟩ ∧ ((sieveState []).core 192).sq.length < 8 ∧
    (0x100#32).toNat % 32 = 0 ∧ (0x100#32).toNat + 32 ≤ 4 * 65536 ∧ (barrierWord 0).1 = true ∧
    Issues (sieveState []) (sieveThread 1 0) (.svlist 0 5) ∧
    svlistBad sieveMember 0 0x100 1 0 = none ∧ (sieveState []).settled [] = true := by
  refine ⟨jointly_all (by decide), by decide, by decide, by decide, by decide, by decide, issues_of (by decide), by decide,
    by decide⟩

/-- The sieve command at the head of its queue, and how it comes out. -/
def sieveCmd (k : SKind) : SCmd := ⟨71, [1, 2], 1, 1, 0, k, [], []⟩
def sieveDone (k : SKind) (f : Option (Nat × DWord)) : Bool :=
  match (sieveState [sieveCmd k]).runCmd { Core.fresh 192 with sq := [sieveCmd k] } (sieveCmd k) sieveMember
    ⟨4, 0x300000, 0x340000, 8⟩ with
  | .done _ _ x => decide (x = f)
  | .wait _ => false
theorem test_hyp_sieve_commands : (∀ k ∈ [SKind.skset 1 0x100, .sieve 0 0x100 1 0 0x300 0 0 0 0x80000400],
      (sieveState [sieveCmd k]).headSieve 71 = some ({ Core.fresh 192 with sq := [sieveCmd k] }, sieveCmd k, sieveMember) ∧
      (sieveState [sieveCmd k]).core 192 = { Core.fresh 192 with sq := [sieveCmd k] }) ∧
    sieveDone (.sieve 0 0x100 1 0 0x300 0 0 0 0x80000400) none = true ∧
    sieveDone (.sieve 0 0x3FFF9 1 0 0x300 0 0 0 0x80000400) none = false ∧
    rowOk ((sieveState []).checkPieces 1 (localPieces false 0x100 32)) = true ∧ Map.wf sieveMember.query = true := by decide
/-- A list of one kept entry whose output lies in a region that is not writable. -/
def listDenied : State := { sieveState [] with members := [{ sieveMember with
  regions := [⟨0, 1, 0x200000, false, [(0, .clean)], [], []⟩], scratch := [(0x300, 1)] }] }
theorem test_hyp_svlist_fails : (match listDenied.runList ⟨4, [], 1, 192, .t⟩ 0x100 0x300 0 0 1 0 with
    | .fail c _ => c == 0x08D
    | _ => false) = true ∧ ((sieveState []).readPieces ⟨4, [], 1, 192, .s⟩ (localPieces false 0x100 32)).2.length = 32 := by
  decide +kernel
/-- A list of one entry with nothing kept ends with no word written. -/
theorem test_hyp_svlist : (match (sieveState []).runList ⟨4, [], 1, 192, .t⟩ 0x100 0x300 0 0 1 0 with
    | .done _ n => n == 0
    | _ => false) = true := by decide

/-- A counter of value 1 with a Gated member; decrements from a copy and from a JDEC. -/
def demoCounter (v : Nat) : Counter := ⟨0, 0, 3, 0, v, [9], some 1, []⟩
def gatedMember (gate : Word) (reg : Bool) : Member := { demoMember with
  id := 9, st := .gated, registered := reg, desc := { demoRec with gate := gate } }
def counting (v : Nat) : State := { inFlight (.jdec 3 1) [.reg 5] with
  members := [demoMember, gatedMember 3 true], counters := [demoCounter v], decs := [⟨97, 80, 1, 0, 3, 1, []⟩] }
theorem test_hyp_counters : (demoCounter 1).handle = 3 ∧ (∀ v ∈ [0, 1, 2],
      (counting v).counter? 0 3 = some (demoCounter v) ∧
      ((counting v).decs.find? fun x => x.id == 97) = some ⟨97, 80, 1, 0, 3, 1, []⟩ ∧ (∀ a ∈ (counting v).arrivals, a.cmd ≠ 80) ∧
      (counting v).settled [] = true ∧ (counting v).flight? 60 = some (demoFlight (.jdec 3 1) [.reg 5]) ∧
      (∀ d ∈ (counting v).decs, d.id ≠ 60) ∧ (counting v).clear (demoFlight (.jdec 3 1) [.reg 5]) = true ∧
      (counting v).member? 9 = some (gatedMember 3 true)) ∧ 9 ∈ (demoCounter 1).gated ∧
    (counting 1).counter? 0 4 = none ∧ (gatedMember 3 false).registered = false ∧ (gatedMember 0xFFFFFFFF false).st = .gated := by
  decide +kernel

/-! ## Postings, dispatch and members that stop -/

/-- A second member, number 9 of section 0, Ready with no core. -/
def waiting (st : MState) : Member := { demoMember with id := 9, st := st, onCore := false, sect := 0 }
/-- The device with it, at a clock far on. -/
def waitingState (m : Member) (c : DWord) : State := { demo with members := [demoMember, m], clock := c, input := .sect 0 0 .mcore }

/-- A YPUT under way, its template the first; a launch in its queue. -/
def putting (n : Nat) (marks : List CancelMark) : State := { inFlight (.yput n 0xFFFFFFFF 0xFFFFFFFF none 2) [.reg 5, .reg 6] with
  marks := marks
  containers := [{ tinyContainer 0 with
    versions := [⟨1, [0x00200000], [⟨1, 0, 0⟩], [{ tinyRecord 0 with entry := 0xFFFFFFFF }], [], []⟩] }] }
def demoHdr : ReqHdr := ⟨5, 900, 1, 0, true, 0, 77, 1, 7, 1⟩
def queuedDesc (gate : Word) (base : DWord) : LaunchRec := { demoRec with gate := gate, operands := [⟨base, 1, 1, 1, 4, 0⟩] }
def queuedOne (gate : Word) (base : DWord) : Queued := ⟨90, demoHdr, 0, queuedDesc gate base, 1, []⟩
def queueState (q : Queued) (jobs : List DWord) : State := { demo with
  input := .pool 0 .mcore, queue := [q], parts := [{ kvPart demoKv with jobs := jobs }] }
theorem test_hyp_postings : (demo.post ⟨demoRec, 0, 1, 7, 0, 1, 1, 5, false, none, [], []⟩).isSome = true ∧
    (∀ x ∈ [(0, []), (0, [(⟨0, 1, 0⟩ : CancelMark)]), (9, [])],
      (putting x.1 x.2).flight? 60 = some (demoFlight (.yput x.1 0xFFFFFFFF 0xFFFFFFFF none 2) [.reg 5, .reg 6]) ∧
      (putting x.1 x.2).member? 1 = some demoMember ∧
      (putting x.1 x.2).clear (demoFlight (.yput x.1 0xFFFFFFFF 0xFFFFFFFF none 2) [.reg 5, .reg 6]) = true ∧
      (∃ c, (putting x.1 x.2).container? 1 = some c) ∧ ∃ v, (putting x.1 x.2).versionOf demoMember = some v ∧ v.templates.length ≤ 9) ∧
    (putting 0 []).marked 0 1 0 = false ∧ (putting 0 [⟨0, 1, 0⟩]).marked 0 1 0 = true ∧
    (∃ c v, (putting 0 []).container? 1 = some c ∧ (putting 0 []).versionOf demoMember = some v ∧
      ((putting 0 []).postYput demoMember v c.cls ((putting 0 []).partMask 0) 0 0xFFFFFFFF 0xFFFFFFFF none 2 []).2 = 0) := by
  refine ⟨by decide +kernel, ?_, by decide, by decide, _, _, rfl, rfl, by decide +kernel⟩
  intro x hx
  simp only [List.mem_cons, List.not_mem_nil, or_false] at hx
  rcases hx with rfl | rfl | rfl <;> exact ⟨by decide, by decide, by decide, ⟨_, rfl⟩, _, rfl, by decide⟩
theorem test_hyp_room : (∀ q ∈ [queuedOne 0xFFFFFFFF 0x200000, queuedOne 3 0x200000, queuedOne 0xFFFFFFFF 0x900000],
      ∀ j ∈ [[], [(1 : DWord)]], (queueState q j).room 0 .mcore = true ∧ (queueState q j).chooseLaunch 0 .mcore 3 = some q ∧
        (queueState q j).nym.sill = .running ∧ (queueState q j).jobCancelled 0 1 = !j.isEmpty) ∧
    (∀ c ∈ demo.counters, c.handle ≠ 3) ∧ (queuedDesc 3 0).gate ≠ 0xFFFFFFFF ∧
    (queuedDesc 0xFFFFFFFF 0x200000).operandsIn (demo.rangesOf 0) = true ∧
    (queuedDesc 0xFFFFFFFF 0x900000).operandsIn (demo.rangesOf 0) = false ∧
    (∃ s1, (queueState (queuedOne 0xFFFFFFFF 0x200000) []).readSchedule 0 (queuedDesc 0xFFFFFFFF 0x200000) = (s1, .entries []) ∧
      ({ s1 with queue := [] }.post ((queuedOne 0xFFFFFFFF 0x200000).posting [] s1.nym.doneClk)).isSome = true) := by
  refine ⟨by decide +kernel, by decide, by decide, by decide, by decide, _, rfl, by decide +kernel⟩

/-- A phase record, the member it is of, and one that is away. -/
def demoPhase : PhaseRec := ⟨3, 4, [⟨0, [(1, 7)], 1, 0⟩, ⟨2, [], 3, 1⟩]⟩
def parkedMember : Member := { waiting .parked with phase := some demoPhase }
def awayMember : Member := { waiting .suspended with
  onCore := true, core := 1, divert := some [(0, .diverting), (0x10000, .diverting)] }
/-- Job 1's cancel, which three sections have applied. -/
def demoCancel : CancelReq := ⟨0, 1, none, some 60, 0, [0]⟩
def marking (m : Member) : State := { inFlight (.ycancel 1) [.reg 5] with
  input := .mark 0 1 0, members := [demoMember, m], cancels := [demoCancel] }
theorem test_hyp_marks : ∀ st ∈ [MState.gated, .ready, .parked, .running, .suspended],
    ((marking (waiting st)).cancels.find? fun x => x.part == 0 && x.job == 1 && x.left.contains 0) = some demoCancel ∧
    (marking (waiting st)).member? 9 = some (waiting st) ∧ (waiting st).sect = 0 ∧ (waiting st).stop = .none ∧
    (marking (waiting st)).member? 1 = some demoMember ∧ (marking (waiting st)).flight? 60 = some (demoFlight (.ycancel 1) [.reg 5]) := by decide
theorem test_hyp_marks_preempted : ∀ k ∈ [Stop.preempt, .saving], k.yields = true ∧
    (marking { waiting .running with stop := k }).member? 9 = some { waiting .running with stop := k } := by decide
/-- A Suspended member whose regions its cancel releases. -/
theorem test_hyp_cancel_away : ∀ k ∈ [Stop.cancel, .limit],
    ({ demo with members := [{ awayMember with id := 1, stop := k }] } : State).member? 1 =
      some { awayMember with id := 1, stop := k } ∧ awayMember.divert ≠ none := by decide
theorem test_hyp_cancel_stop : ∀ k ∈ [Stop.cancel, .limit], ∀ st ∈ [MState.suspended, .running],
    ({ demo with members := [{ demoMember with st := st, stop := k }] } : State).member? 1 = some { demoMember with st := st, stop := k } ∧
    (∀ t ∈ demo.threads, ({ demo with members := [{ demoMember with st := st, stop := k }] } : State).hasStopped t = true) := by
  decide

/-- The first entry of the pool and its core. -/
def pickIs (s : State) (m : Member) (core : Nat) : Bool :=
  match s.pick 0 [] (s.pool 0 0 .mcore) with
  | some (x, c, _) => decide (x = m) && c == core
  | none => false
theorem pick_of {s : State} {m : Member} {core : Nat} (h : pickIs s m core = true) :
    ∃ p, s.pick 0 [] (s.pool 0 0 .mcore) = some (m, core, p) := by
  unfold pickIs at h
  split at h
  · rename_i x c p hp
    simp only [Bool.and_eq_true, decide_eq_true_eq, beq_iff_eq] at h
    exact ⟨p, by rw [hp, h.1, h.2]⟩
  · exact absurd h (by decide)
theorem test_hyp_dispatch : (∃ p, (waitingState (waiting .ready) 5).pick 0 [] ((waitingState (waiting .ready) 5).pool 0 0 .mcore) =
      some (waiting .ready, 1, p)) ∧ (waitingState (waiting .ready) 5).member? 9 = some (waiting .ready) ∧
    (∃ p, (waitingState parkedMember 5).pick 0 [] ((waitingState parkedMember 5).pool 0 0 .mcore) = some (parkedMember, 1, p)) ∧
    (waitingState parkedMember 5).member? 9 = some parkedMember ∧ parkedMember.phase = some demoPhase ∧
    (∃ p, (waitingState awayMember 5).pick 0 [] ((waitingState awayMember 5).pool 0 0 .mcore) = some (awayMember, 1, p)) ∧
    (waitingState awayMember 5).member? 9 = some awayMember ∧ (waiting .ready).desc.flags.testBit 0 = true := by
  refine ⟨pick_of (by decide +kernel), by decide, pick_of (by decide +kernel), by decide, rfl, pick_of (by decide +kernel),
    by decide, by decide⟩
theorem test_hyp_restore : ∀ l ∈ [[(0, Divert.restoring)], [(0, .direct), (0x10000, .restoring), (0x20000, .diverting)]],
    ({ demo with input := .id 1, members := [{ demoMember with divert := some l }] } : State).member? 1 =
      some { demoMember with divert := some l } ∧ l.any (fun d => d.2 == .restoring) = true := by decide
/-- An S-core's member that gives way, and an entry of another account that needs the whole scratchpad. -/
def yielding (st : Stop) : Member := { sieveMember with stop := st }
def urgent : Member := { tinyMember 9 0 { tinyRecord 1 with scratch := 64 } with
  st := .ready, onCore := false, acct := 8, prio := 1, firstSince := some 0 }
def pressed (c : DWord) (w : Wait) : State := { demo with
  members := [yielding .none, urgent], clock := c, input := .sect 0 0 .score, parts := [{ kvPart demoKv with cfg := demoCfg }]
  threads := [{ sieveThread 1 0 with wait := w }, { sieveThread 2 1 with wait := w }], crews := [⟨1, 192, 0, 0, 1, 4, none, true, []⟩] }
theorem test_hyp_preempt : ∀ w ∈ [Wait.none, .publish .boundary],
    ((pressed 70000 w).pool 0 0 .score).head? = some urgent ∧
    (∀ z ∈ (pressed 70000 w).members, z.stop.yields = false ∨ z.part ≠ 0) ∧ (pressed 70000 w).choose urgent 0 = none ∧
    (pressed 70000 w).victim ((pressed 70000 w).members.filter ((pressed 70000 w).couldYield urgent)) = some (yielding .none) ∧
    ((pressed 70000 w).atBoundary (yielding .none)).isSome = (w == .publish .boundary) ∧
    ((pressed 7000 w).pool 0 0 .score).head? = some urgent := by decide +kernel
/-- A member that stops: at the stop, while it is saved, with a command that reaches its core under way. -/
def stopping (k : Stop) (w : Wait) : State := { demo with
  members := [{ demoMember with stop := k }], threads := [{ demo1 with wait := w }] }
theorem test_hyp_stop : (∀ k ∈ [Stop.preempt, .saving, .none],
      (stopping k .none).member? 1 = some { demoMember with stop := k } ∧
      (∀ t ∈ (stopping k .none).threads, (stopping k .none).hasStopped t = true) ∧
      (stopping k .none).drained { demoMember with stop := k } = true) ∧
    (∃ t ∈ (stopping .preempt (.walk (.store 0x200000 []))).threads, t.member = 1 ∧
      (stopping .preempt (.walk (.store 0x200000 []))).hasStopped t = false) ∧
    (∀ r ∈ demoMember.regions, r.marked = []) ∧
    ({ stopping .saving .none with cores := [{ Core.fresh 0 with mq := [arrayCmd .mzero] }] } : State).drained
      { demoMember with stop := .saving } = false := by decide +kernel
def limited (n used : Nat) : Member := { demoMember with desc := { demoRec with runlimit := n }, used := used }
theorem test_hyp_limit : (∀ x ∈ [(1, 0x100001), (1, 0x100000), (0, 0x100001)],
      ({ demo with members := [limited x.1 x.2] } : State).member? 1 = some (limited x.1 x.2)) ∧
    (limited 1 0x100001).desc.runlimit * 2 ^ 20 < (limited 1 0x100001).used + (demo.clock - 0).toNat ∧
    (limited 1 0x100000).used + (demo.clock - 0).toNat ≤ 1 * 2 ^ 20 := by decide

/-- A crew whose threads wait for their publication. -/
def publishing (x : AfterPhase) : State := { demo with
  threads := [{ demoThread 1 0 with wait := .publish x }, { demoThread 2 1 with wait := .publish x }] }
def demoCrew : Crew := ⟨1, 0, 0, 0, 1, 4, none, true, []⟩
theorem test_hyp_boundary : (∀ x ∈ [AfterPhase.boundary, .arrive 1 2 none false, .keep 1 0 1 []],
      (publishing x).crew? 1 = some demoCrew ∧ (publishing x).member? 1 = some demoMember ∧
      sortBy (·.lane) (((publishing x).crewThreads 1).filter Thread.publishes) = (publishing x).threads ∧
      demoMember.goesOn = true ∧ (publishing x).published demoCrew (publishing x).threads = true ∧
      (publishing x).wantsPark demoMember demoCrew (publishing x).threads = false) ∧
    (pressed 5 (.publish .boundary)).crew? 1 = some ⟨1, 192, 0, 0, 1, 4, none, true, []⟩ ∧
    (pressed 5 (.publish .boundary)).published ⟨1, 192, 0, 0, 1, 4, none, true, []⟩ (pressed 5 (.publish .boundary)).threads = true ∧
    (pressed 5 (.publish .boundary)).wantsPark (yielding .none) ⟨1, 192, 0, 0, 1, 4, none, true, []⟩
      (pressed 5 (.publish .boundary)).threads = true ∧ (∀ f ∈ (pressed 5 (.publish .boundary)).flights, f.member ≠ 1) ∧
    (∀ r ∈ (yielding .none).regions, r.marked = []) := by decide +kernel

/-- An ended member, its done counter number 3, so far in its release. -/
def endedMember (st : MState) (quiesced : Bool) (freed : List Nat) (retire : Nat) : Member := { demoMember with
  st := st, quiesced := quiesced, freed := freed, retire := retire, did := [(4, 1)], desc := { demoRec with done := 3 } }
def ending (m : Member) (v : Nat) : State := { demo with
  members := [m], threads := [], counters := [demoCounter v], input := .id 1 }
theorem test_hyp_retirement : (∀ st ∈ [MState.done, .cancelled], ∀ x ∈ [(false, [], 0), (true, [], 0), (true, [0, 2], 0),
        (true, [0, 1, 2, 3], 0), (true, [0, 1, 2, 3], 6), (true, [0, 1, 2, 3], 7), (true, [0, 1, 2, 3], 8)], ∀ v ∈ [0, 1],
      let m := endedMember st x.1 x.2.1 x.2.2
      (ending m v).member? 1 = some m ∧ (ending m v).quiescent m = true ∧ (ending m v).settled m.allDid = true ∧
        (ending m v).counter? 0 3 = some (demoCounter v)) ∧
    (let m := endedMember .done true [0, 1, 2, 3] 6
     ({ inFlight (.store ⟨0, 0x210000⟩ [1]) [] with members := [m] } : State).settled m.allDid = false ∧
     ({ inFlight (.store ⟨0, 0x210000⟩ [1]) [] with members := [m] } : State).quiescent m = false) := by
  decide +kernel

/-! ## Migration, timers, pages -/

def demoAdvert : Advert := ⟨1, 0, .score, 64, 64⟩
def migrating : State := { pressed 8192 .none with adverts := [demoAdvert] }
theorem test_hyp_migrate : migrating.pool 0 0 .score = [urgent] ∧ migrating.choose urgent 0 = none ∧
    (migrating.adverts.find? fun a => a.sect != 0 && a.takes urgent) = some demoAdvert ∧
    (([urgent].filter fun x => x.mayMove && demoAdvert.takes x).take 16) ≠ [] ∧ migrating.member? 9 = some urgent ∧
    ((0 : DWord).toNat + 8192 ≤ migrating.clock.toNat) := by decide +kernel
/-- Message 95 with entry 9, from section 1 to a section. -/
def moving (was : Bool) (dst : Nat) (taken : Option (List Nat)) : State := { demo with
  members := [demoMember, waiting (.moving was)], moves := [⟨95, 1, dst, [9], taken⟩], input := .id 95 }
theorem test_hyp_move : (∀ was ∈ [true, false], ∀ dst ∈ [0, 1], ∀ x ∈ [none, some [], some [9]],
      ((moving was dst x).moves.find? fun y => y.id == 95) = some ⟨95, 1, dst, [9], x⟩ ∧
      (moving was dst x).member? 9 = some (waiting (.moving was)) ∧ (moving was dst x).marked 0 1 dst = false) ∧
    ((moving true 0 none).acceptEntries 0 [9] []).2 = [9] ∧ ((moving false 1 none).acceptEntries 1 [9] []).2 = [] := by
  decide +kernel
theorem test_hyp_timers : (∀ c : DWord, ({ demo with threads := [{ demo1 with wait := .held 0, pause := some 64 }], clock := c } : State).thread? 1 =
      some { demo1 with wait := .held 0, pause := some 64 }) ∧ (0 : DWord).toNat + 64 ≤ (64 : DWord).toNat ∧
    (63 : DWord).toNat < (0 : DWord).toNat + 64 ∧ (64 : DWord) ≤ 64 ∧ (63 : DWord) < 64 :=
  ⟨fun _ => rfl, by decide, by decide, by decide, by decide⟩
def gatedCore (g : Bool) (w : Option DWord) : State := { demo with
  cores := [{ Core.fresh 0 with gated := g, wakeAt := w }], clock := 200, input := .id 0 }
theorem test_hyp_gates : (∃ t ∈ demo.threads, t.core = 0 ∧ (gatedCore false none).isReady t = true) ∧
    (∀ t ∈ (publishing .boundary).threads, t.core = 0 → (publishing .boundary).isReady t = false) ∧
    ((gatedCore false none).core 0).gated = false ∧ ((gatedCore false none).core 0).lastActive.toNat + 32 ≤ 200 ∧
    (∃ t ∈ (gatedCore true none).threads, t.core = 0 ∧ (gatedCore true none).isReady t = true) ∧
    ((gatedCore true none).core 0).gated = true ∧ ((gatedCore true none).core 0).wakeAt = none ∧
    ((gatedCore false (some 144)).core 0).wakeAt = some 144 ∧ (gatedCore false (some 144)).isReady demo1 = true := by
  decide +kernel
theorem test_hyp_wake : (∀ w, ((gatedCore true (some w)).core 0).wakeAt = some w) ∧ (200 : DWord) ≤ 200 ∧ (200 : DWord) < 201 :=
  ⟨fun _ => rfl, by decide, by decide⟩

/-- A thread at the end of the walk of an access; page 0x20 is there, writable, page 0x21 is not. -/
def walking (op : MemOp) : State := { demo with
  mem := pagedMem, threads := [{ demo1 with wait := .walk op }, demoThread 2 1], input := .id 1 }
def walker (op : MemOp) : Thread := { demo1 with wait := .walk op }
/-- What a check comes to: passed, absent, refused. -/
def checkKind (c : Check) : Nat :=
  match c with
  | .pass _ _ => 0
  | .absent _ => 1
  | .deny _ _ => 2
  | _ => 3
theorem test_hyp_walk_end : (∀ x ∈ [(MemOp.load 0x200010 4 false [.reg 5], (0x200010, false, false)),
        (.load 0x210010 4 false [.reg 5], (0x210010, false, false)), (.load 0x900010 4 false [.reg 5], (0x900010, false, false)),
        (.store 0x200010 [1, 2, 3, 4], (0x200010, true, false)),
        (.atomic 0x200010 .add 1 0 ⟨0, false, false, false, 0⟩ [.reg 1], (0x200010, true, true))],
      (walking x.1).thread? 1 = some (walker x.1) ∧ x.1.needs = [⟨x.2.1, 4, x.2.2.1, x.2.2.2⟩] ∧
      mayOk (walking x.1) (walker x.1) demoMember = true) ∧
    [checkKind ((walking (.store 0 [])).check demoMember ⟨0x200010, 4, false, false⟩),
      checkKind ((walking (.store 0 [])).check demoMember ⟨0x210010, 4, false, false⟩),
      checkKind ((walking (.store 0 [])).check demoMember ⟨0x200011, 4, false, true⟩)] = [0, 1, 2] ∧
    Memory.wf pagedMem = true := by decide +kernel
/-- Page faults on page 0x21, in the ranges, and on page 0x90, outside. -/
def faulting (page : Nat) : State := { demo with
  mem := pagedMem, faults := [(0, page)], input := .page 0 page
  threads := [{ demo1 with wait := .parked (.load (BitVec.ofNat 64 (page * 65536)) 4 false [.reg 5]) page }, demoThread 2 1] }
theorem test_hyp_faults : (∀ p ∈ [0x21, 0x90], (faulting p).faults.contains (0, p) = true) ∧
    (faulting 0x21).pageInRanges 0 0x21 = true ∧ (faulting 0x90).pageInRanges 0 0x90 = false ∧
    (faulting 0x90).threads.filter ((faulting 0x90).parkedAt 0 0x90) =
      [{ demo1 with wait := .parked (.load 0x900000 4 false [.reg 5]) 0x90 }] ∧
    (let s := faulting 0x21
     let e1 := s.entryAt (s.entry1 0 0x21)
     let a2 := entryFrame e1 + 8 * (0x21 / 2 ^ 13 % 8192)
     let a3 := entryFrame (s.entryAt a2) + 8 * (0x21 % 8192)
     entryOk e1 1 = true ∧ entryOk (s.entryAt a2) 2 = true ∧ (s.entryAt a2).getLsbD 1 = false ∧
       entryOk (s.entryAt a3) 3 = false) := by decide +kernel
/-- The fault of a lane of a bent that is in its handler while a girt result is due. -/
def heldFault : State := { girtDue with
  faults := [(0, 0x90)], input := .page 0 0x90
  threads := [{ bent1 with busy := true, wait := .parked (.load 0x900000 4 false [.reg 5]) 0x90 }] }
theorem test_hyp_trap_held : heldFault.trapHeld 3 = true ∧ heldFault.faults.contains (0, 0x90) = true ∧
    heldFault.pageInRanges 0 0x90 = false ∧ heldFault.threads.filter (heldFault.parkedAt 0 0x90) = heldFault.threads ∧
    heldFault.member? 1 = some demoMember ∧ (faulting 0x90).trapHeld 1 = false := by decide +kernel
/-- The tables with page 0x21's leaf removed and its frame kept, and with a 1 GiB leaf removed. -/
def removedMem : Memory := [(0x10000, 1), (0x10002, 2), (0x20000, 1), (0x20002, 3), (0x20008, 6), (0x20009, 2), (0x2000B, 0x20),
  (0x30100, 7), (0x30102, 4), (0x30108, 6), (0x3010A, 5)]
theorem test_hyp_removed : (let s := { faulting 0x21 with mem := removedMem }
    let e1 := s.entryAt (s.entry1 0 0x21)
    let e2 := s.entryAt (entryFrame e1)
    let e3 := s.entryAt (entryFrame e2 + 8 * 0x21)
    let g := s.entryAt (entryFrame e1 + 8)
    entryOk e1 1 = true ∧ entryOk e2 2 = true ∧ e2.getLsbD 1 = false ∧ entryOk e3 3 = false ∧ entryFrame e3 = 0x50000 ∧
      g.getLsbD 1 = true ∧ entryOk g 2 = false ∧ s.entry1 0 (2 ^ 13) = s.entry1 0 0x21) ∧
    Memory.wf removedMem = true := by decide +kernel
/-- A walk that ends at the page of frame 4, a 64 KiB leaf. -/
def walkFour (s : State) : Bool :=
  match s.walk (s.rootOf 0) 0x200000 with
  | some w => w.leaf.extractLsb' 8 2 == 0 && w.pa / 65536 == 4 && !s.frameInUse (w.pa / 65536)
  | none => false
theorem test_hyp_entries : walkFour { demo with mem := pagedMem } = true ∧ entryFrame 0x40001 = 4 * 65536 ∧
    (0x40001 : DWord).getLsbD 0 = true ∧ (0x40000 : DWord).getLsbD 0 = false ∧
    ({ demo with mem := pagedMem, flights := [demoFlight (.load ⟨0, 0x40010⟩ 4 false) []] } : State).frameInUse 4 = true ∧
    ({ demo with mem := pagedMem } : State).frameOf 0 0x20 = some 4 ∧ ({ demo with mem := pagedMem } : State).frameOf 0 0x22 = none ∧
    (∀ e ∈ [(0x40003, true, 0, true), (0x40002, false, 0, true), (0x50007, true, 0, false), (0x40107, true, 1, true)],
      ((BitVec.ofNat 64 e.1).getLsbD 0, entrySize (BitVec.ofNat 64 e.1), decide (entryFrame (BitVec.ofNat 64 e.1) = 0x40000)) =
        (e.2.1, e.2.2.1, e.2.2.2)) ∧ [0, 1, 2].map spanOf = [1, 32, 16384] := by
  decide +kernel
/-- The pages that a change of page 0x20 to 64 KiB and to 2 MiB takes in are not in use. -/
theorem test_hyp_idle_frames : [1, 32].all (fun n => (List.range n).all fun i =>
    match ({ demo with mem := pagedMem } : State).frameOf 0 (0x20 / n * n + i) with
    | some f => !({ demo with mem := pagedMem } : State).frameInUse f
    | none => true) = true := by decide +kernel
theorem test_hyp_sweep : (kvPart demoKv).sweepAt ≤ demo.clock ∧ demo.part? 0 = some (kvPart demoKv) ∧
    ({ demo with parts := [{ kvPart demoKv with sweepAt := 9 }] } : State).clock < 9 := by decide
/-! ## Records, requests, RMA, boot -/

def notBusy : State := { demo with members := [], usageAt := 5, input := .id 0 }
def latchedPart (n : Nat) : Partition := { kvPart demoKv with
  latched := some ⟨9, 1, 2, 0, 0, 2, 0, 0⟩, snaps := List.replicate n ⟨8, 1, 2, 0, 0, 2, 0, 0⟩ }
theorem test_hyp_records : (∃ a, demo.acct? 7 = some a ∧ demo.usageAt ≤ demo.clock) ∧
    (∃ a, notBusy.acct? 7 = some a ∧ notBusy.clock < notBusy.usageAt ∧ (∀ m ∈ notBusy.members, m.acct ≠ 7)) ∧
    (∀ a ∈ demo.accts, ∀ b ∈ demo.accts, b.id = a.id → b = a) ∧ (∀ a ∈ demo.accts, a.id ≠ 8) ∧
    demo.part? 0 = some (kvPart demoKv) ∧ (kvPart demoKv).latched = none ∧
    (∀ n ∈ [0, 3, 4], ({ demo with parts := [latchedPart n] } : State).part? 0 = some (latchedPart n) ∧
      (latchedPart n).snaps.length = n) ∧
    [linkNumber .die 5, linkNumber .ethernet 7, linkNumber .hbm 15, linkNumber .die 6] = [some 5, some 13, some 29, none] := by
  refine ⟨⟨_, rfl, by decide⟩, ⟨_, rfl, by decide, by decide⟩, by decide, by decide, rfl, rfl, ?_, by decide⟩
  intro n hn
  simp only [List.mem_cons, List.not_mem_nil, or_false] at hn
  rcases hn with rfl | rfl | rfl <;> exact ⟨rfl, rfl⟩

/-- A request header from endpoint 900 to an endpoint, for job 1, account 7 and handle 1. -/
def hdr (ep : Nat) (n : Nat) (fmt : Byte) : ReqHdr := ⟨ep, 900, fmt, 0, false, BitVec.ofNat 32 n, 77, 1, 7, 1⟩
def asking (h : ReqHdr) (p : Payload) : State := { demo with input := .request h p }
theorem arrives_at (ep : Nat) (k : Byte) (n : Nat) (f : Byte) (p : Payload) (he : ep = 5 ∨ ep = 0)
    (h : ∀ x, p ≠ .kind x) : Arrives (asking (hdr ep n f) p) k (hdr ep n f) p 0 := by
  refine ⟨?_, rfl, ?_, by intro x hx; exact absurd hx (by simp [asking, demo, demoOf, Nym.reset])⟩
  · cases p <;> first | rfl | exact absurd rfl (h _)
  · rcases he with rfl | rfl <;> rfl
/-- A send of a kind: its format, priority, length field, identifier 77, job 1, account 7, handle 1. -/
def sent (k : Byte) (n : Byte) (p : List Byte) : List Byte := [k, 1, 2, 0, n, 0, 0, 0, 77, 0, 0, 0, 0, 0, 0, 0,
  1, 0, 0, 0, 0, 0, 0, 0, 7, 0, 0, 0, 1, 0, 0, 0] ++ p
theorem test_hyp_messages : (∀ k ∈ [1, 8, 13], 32 ≤ (sent k 0 []).length ∧ (sent k 0 [])[0]? = some k ∧ 1 ≤ k.toNat ∧ k.toNat ≤ 13) ∧
    (∀ k ∈ [0, 14, 255], (sent k 0 [])[0]? = some k ∧ (k = 0 ∨ 13 < k.toNat)) ∧
    (headerOf 5 900 (sent 8 4 [])).length.toNat ≠ (sent 8 4 []).length - 32 ∧
    headerOf 5 900 (sent 8 4 []) = { hdr 5 4 1 with prio := 2 } := by decide
theorem test_hyp_unknown_kind : Arrives (asking (hdr 5 0 1) (.kind 14)) 0 (hdr 5 0 1) (.kind 14) 0 ∧
    requestOk (hdr 5 0 1) (.kind 14) = true ∧ requestOk (hdr 5 0 2) (.kind 14) = false :=
  ⟨⟨rfl, rfl, rfl, by intro x hx; exact absurd hx (by simp [asking, demo, demoOf, Nym.reset])⟩, by decide, by decide⟩
/-- Every other payload arrives for its kind, well made and not, from a partition and from the operator. -/
theorem test_hyp_arrives : ∀ x ∈ [((1 : Byte), 2, Payload.container [1, 2]), (2, 1, .patch ⟨1, some [0x00200000], 0, 0, none, none, none⟩),
      (3, 0, .empty), (4, 256, .record (List.replicate 256 0)), (5, 0, .empty), (6, 2, .accounts [7]),
      (7, 32, .nonce (List.replicate 32 0)), (8, 0, .empty), (9, 4, .counter 3), (10, 24, .move 0x200000 0x210000 8),
      (11, 1, .partcfg 1 demoCfg), (12, 1, .acctcfg 7 ⟨0, 1, 3, 8, 1⟩), (13, 1, .image ⟨0, [], [], 3⟩)],
    (∀ ep ∈ [0, 5], ∀ f ∈ [1, 2], Arrives (asking (hdr ep x.2.1 f) x.2.2) x.1 (hdr ep x.2.1 f) x.2.2 0) ∧
    requestOk (hdr 5 x.2.1 1) x.2.2 = true ∧ requestOk (hdr 5 x.2.1 2) x.2.2 = false ∧
    (asking (hdr 6 x.2.1 1) x.2.2).requestFor x.1 = some (hdr 6 x.2.1 1, x.2.2) := by
  intro x hx
  refine ⟨fun ep he f _ => arrives_at ep x.1 x.2.1 f x.2.2 ?_ ?_, ?_, ?_, ?_⟩
  · simp only [List.mem_cons, List.not_mem_nil, or_false] at he
    exact he.symm
  all_goals
    simp only [List.mem_cons, List.not_mem_nil, or_false] at hx
    rcases hx with rfl | rfl | rfl | rfl | rfl | rfl | rfl | rfl | rfl | rfl | rfl | rfl | rfl <;>
      decide +kernel
theorem test_hyp_requests : requestOk (hdr 5 0 1) .empty = true ∧ requestOk (hdr 5 1 1) .empty = false ∧
    requestOk (hdr 0 0 1) .empty = true ∧ requestOk (hdr 5 0 2) .empty = false ∧ (hdr 0 0 1).job ≠ 0 ∧
    demo.endpointPart 6 = none ∧ (demo.endpointPart 5).isSome = true ∧ (hdr 6 0 1).ep ≠ 0 ∧
    (∀ x ∈ [none, some (Msg.reply 900 77 0 .empty)],
      (({ asking (hdr 5 0 1) .empty with nym := { demo.nym with seen := [⟨5, 77, x⟩] } } : State).nym.seen.find?
        fun y => y.ep == 5 && y.reqid == 77) = some ⟨5, 77, x⟩) := by decide

/-- A container of one function with one native word, before its digest; its body. -/
def contHead : List Byte := [0x4D, 0x4C, 0x44, 0, 1, 0, 0, 0, 2, 0, 0, 0, 1, 0, 0, 0, 0, 0, 0, 0, 196, 0, 0, 0]
def contBody : List Byte := [1, 0, 0, 0, 128, 0, 0, 0, 32, 0, 0, 0, 0, 0, 0, 0, 6, 0, 0, 0, 192, 0, 0, 0, 4, 0, 0, 0, 0, 0, 0, 0] ++
  List.replicate 32 0 ++ ([1, 0, 0, 0] ++ List.replicate 16 0xFF ++ List.replicate 12 0) ++ List.replicate 32 0 ++ [0, 0, 0x20, 0]
def contBytes : List Byte := contHead ++ Config.sha256 contBody ++ List.replicate 8 0 ++ contBody
theorem test_hyp_container : containerStatus contBytes demoCfg = none ∧ (sectionOf contBytes 6).length / 4 ≤ 2 ^ 22 ∧
    (demo.noteSeen (hdr 5 196 1)).imageBase 0 (imagesSpan (sharedImagesOf (sectionOf contBytes 7))) = some 0 ∧
    chooseBodies contBytes (funcsOf contBytes) (patchedWords (sectionOf contBytes 7) 0 (wordsIn (sectionOf contBytes 6))) =
      some ([0x00200000], [⟨1, 0, 0⟩]) ∧ requestOk (hdr 5 196 1) (.container contBytes) = true ∧
    containerStatus [] demoCfg = some 0x01 ∧ containerStatus (contBytes.set 6 1) demoCfg = some 0x03 := by
  refine ⟨?_, by decide +kernel, by decide +kernel, by decide +kernel, by decide +kernel, by decide +kernel, by decide +kernel⟩
  have h1 : headerOk contBytes = true := by decide +kernel
  have h2 : sliceNat contBytes 6 2 = 0 := by decide +kernel
  have h3 : Config.sha256 (contBytes.drop 64) = slice contBytes 24 32 := rfl
  have h4 : bodyOk contBytes = true := by decide +kernel
  simp [containerStatus, h1, h2, h3, h4, demoCfg]
theorem test_hyp_patch : (∀ c v f, patchOk ⟨1, some [0x00200000], 0, 0, c, v, f⟩ = true) ∧
    (∃ c v, demo.container? 1 = some c ∧ c.part = 0 ∧ c.version? c.current = some v ∧ (v.funcs.any fun f => f.id == 1) = true) ∧
    demo.container? 2 = none ∧
    16 ≤ ({ tinyContainer 0 with versions := List.replicate 16 ⟨1, [], [⟨1, 0, 0⟩], [], [], []⟩ } : Container).versions.length ∧
    (∃ c, demo.containerIn 0 1 = some c ∧ demo.containerRefs c ≠ 0) ∧ demo.containerIn 0 2 = none ∧
    (∃ c, notBusy.containerIn 0 1 = some c ∧ notBusy.containerRefs c = 0) := by
  refine ⟨fun _ _ _ => rfl, ⟨_, _, rfl, rfl, rfl, by decide⟩, by decide, by decide, ⟨_, rfl, by decide⟩, by decide,
    ⟨_, rfl, by decide⟩⟩

theorem test_hyp_over : wordsOver 0 [0x00200000] = false ∧ wordsOver 0 [0xB8200400] = true ∧ wordsOver 1 [0xB8200400] = false ∧
    patchWords ⟨1, some [0x00200000], 0, 0, none, none, none⟩ = some ([0x00200000], 0, 0) ∧
    loadOver contBytes = false ∧ loadOver (contBytes.take 192 ++ [0, 4, 0x20, 0xB8] ++ contBytes.drop 196) = true := by
  refine ⟨by decide, by decide, by decide, rfl, by decide +kernel, by decide +kernel⟩
/-- A body whose one item is not covered: whether one is, is the translator's. -/
theorem test_hyp_untranslatable (h : Config.itemCount 0 [1] = 1) (g : Config.itemWords 0 [1] 0 = none) :
    patchOk ⟨1, none, 0, 0, some [1], none, none⟩ = true ∧ patchWords ⟨1, none, 0, 0, some [1], none, none⟩ = none := by
  refine ⟨rfl, ?_⟩
  have h' : Config.itemCount 0 [1#8] = 1 := h
  have g' : Config.itemWords 0 [1#8] 0 = none := g
  simp [patchWords, Bodies.translate, levelWords, h', List.range_succ, Bodies.tileItem, Bodies.lower, ownWords, g', allSome]

/-- A launch record of one member of one thread: width 1, 8 register windows, 2 units, no counters. -/
def launchBytes (version : Byte) : List Byte := [0, 0, 0, 0, 1, 0, 0, 0, version, 0, 0, 0, 0xFF, 0xFF, 0xFF, 0xFF, 0, 1, 8, 2] ++
  List.replicate 12 0 ++ [1, 0, 0, 0] ++ List.replicate 8 0xFF ++ List.replicate 212 0
def launchRec (version : Byte) : LaunchRec := { recordOf (launchBytes version) with container := 1 }
/-- The device where launches of account 7 wait as many as they may. -/
def launching (n : Nat) : State := { asking (hdr 5 256 1) (.record (launchBytes 1)) with
  queue := List.replicate n ⟨90, hdr 5 256 1, 0, launchRec 1, 1, []⟩ }
def boundIs (c : Container) (d : LaunchRec) (n : Nat) : Bool :=
  match c.bind d with
  | .ok v => v.num == n
  | .error _ => false
theorem test_hyp_launch : launchMade (hdr 5 256 1) (launchBytes 1) = true ∧ launchMade (hdr 5 255 1) ((launchBytes 1).drop 1) = false ∧
    requestOk (hdr 5 256 1) (.record (launchBytes 1)) = true ∧
    (∃ c, (launching 0).container? 1 = some c ∧ c.part = 0 ∧ boundIs c (launchRec 1) 1 = true ∧ c.named 9 = none) ∧
    (launching 0).acctIn 0 7 = true ∧ (launching 0).acctIn 0 8 = false ∧
    (launching 0).launchBarred (hdr 5 256 1) 0 (launchRec 1) = none ∧
    (launching 0).launchLate (hdr 5 256 1) 0 (launchRec 1) = none ∧
    (launching 8).launchLate (hdr 5 256 1) 0 (launchRec 1) = some 0x0D := by
  refine ⟨by decide +kernel, by decide +kernel, by decide +kernel, ⟨_, rfl, rfl, by decide +kernel, by decide +kernel⟩,
    by decide, by decide, by decide +kernel, by decide +kernel, by decide +kernel⟩

theorem test_hyp_launch_refused :
    ({ demo with members := [] } : State).container? 2 = none ∧
    (launching 0).launchBarred { hdr 5 256 1 with acct := 8 } 0 (launchRec 1) = some 0x08 ∧
    (∃ a, (launching 0).acct? 7 = some a ∧ a.cfg.classLimit < ({ hdr 5 256 1 with prio := 4 } : ReqHdr).prio.toNat) ∧
    (launching 0).launchBarred { hdr 5 256 1 with prio := 4 } 0 (launchRec 1) = some 0x08 ∧
    (let s := { launching 0 with parts := [⟨0, { demoCfg with mask := 1 }, 0x10000, [], demoKv, 0, [], none, [], 0⟩] }
     (s.partMask 0).getLsbD 0 = true ∧ s.launchBarred (hdr 5 256 1) 0 { launchRec 1 with flags := 1 } = some 0x08) ∧
    (let s := { launching 0 with parts := [⟨0, demoCfg, 0x10000, [1], demoKv, 0, [], none, [], 0⟩] }
     s.jobCancelled 0 1 = true ∧ s.launchBarred (hdr 5 256 1) 0 (launchRec 1) = some 0x0A) ∧
    (tinyContainer 0).named 9 = none ∧
    (∃ v, (tinyContainer 0).named 1 = some v ∧ (∀ f ∈ v.funcs, f.id ≠ 5) ∧ (∃ f ∈ v.funcs, f.id = 1) ∧
      ({ launchRec 1 with entry := 0 } : LaunchRec).over 0 = true) ∧
    (launching 0).handleLive 0 3 = false ∧ (launching 0).handleLive 0 0xFFFFFFFF = true ∧
    (launching 0).launchLate (hdr 5 256 1) 0 { launchRec 1 with gate := 3 } = some 0x0B ∧
    (∃ a, (launching 8).acct? 7 = some a ∧ a.cfg.qbound ≤ ((launching 8).queueOf 7 0).length) := by
  refine ⟨by decide, by decide +kernel, ⟨_, rfl, by decide⟩, by decide +kernel, by decide +kernel, by decide +kernel, by decide,
    ⟨_, rfl, by decide, by decide, by decide +kernel⟩, by decide, by decide, by decide +kernel, ⟨_, rfl, by decide +kernel⟩⟩

theorem test_hyp_jobs : demo.counter? 0 3 = none ∧ (∀ v ∈ [0, 1], (counting v).counter? 0 3 = some (demoCounter v)) ∧
    requestOk (hdr 5 4 1) (.counter 3) = true ∧ requestOk (hdr 5 24 1) (.move 0x200000 0x210000 8) = true ∧
    inRanges (demo.rangesOf 0) 0x200000 8 = true ∧ inRanges (demo.rangesOf 0) 0x5FFFF8 8 = true ∧
    inRanges (demo.rangesOf 0) 0x5FFFF9 8 = false := by decide

/-- A configuration that is well made; one that shares account 7 with partition 0. -/
def goodCfg : PartCfg := { demoCfg with sweepJ := some 24, kv := none }
theorem test_hyp_operator : configOk 0 demoCfg = false ∧ configOk 0 goodCfg = true ∧ demo.configBarred 0 goodCfg = false ∧
    demo.configBarred 1 goodCfg = true ∧ demo.removesUsed 0 demoCfg goodCfg = false ∧
    demo.removesUsed 0 demoCfg { goodCfg with clusters := 2 } = true ∧ configOk 0 { goodCfg with clusters := 2 } = true ∧
    demo.configBarred 0 { goodCfg with clusters := 2 } = false ∧ acctOk 7 ⟨0, 1, 3, 8, 1⟩ = true ∧ acctOk 7 ⟨0, 0, 3, 8, 1⟩ = false ∧
    (∃ x, demo.part? 0 = some x ∧ 7 ∈ x.cfg.accounts ∧ 8 ∉ x.cfg.accounts) ∧ demo.partOfAcct 7 = some 0 ∧
    demo.acctOutside (hdr 5 8 1) 0 8 = true ∧ (List.replicate 32 (0 : Byte)).length = 32 ∧
    requestOk (hdr 5 32 1) (.nonce (List.replicate 32 0)) = true := by
  refine ⟨by decide, by decide, by decide, by decide, by decide +kernel, by decide +kernel, by decide, by decide, by decide,
    by decide, ⟨_, rfl, by decide, by decide⟩, by decide, by decide, by decide, by decide⟩

/-- An RMA operation of peer 3 at partition 0's endpoint; the page of 0x200000 is there. -/
def rmaState (addr : DWord) (r : RmaReq) : State := { demo with mem := pagedMem, input := .rma 5 3 addr r }
theorem test_hyp_rma : (∀ r ∈ [RmaReq.put [1, 2], .get 4, .atomic .add true 1 0],
      (rmaState 0x200008 r).endpointPart 5 = some 0 ∧ (rmaState 0x200008 r).settled ((rmaState 0x200008 r).epClock 3) = true ∧
      inRanges ((rmaState 0x200008 r).rangesOf 0) 0x200008 8 = true ∧
      ((rmaState 0x200008 r).touchAll 0 (piecesOf true 0x200008 8)).rmaAllowed 0 (piecesOf true 0x200008 8) = true ∧
      inRanges ((rmaState 0x200008 r).rangesOf 0) 0x900008 8 = false ∧
      (({ rmaState 0x200008 r with poison := [0x40] } : State).touchAll 0 (piecesOf true 0x200008 8)).rmaAllowed 0
        (piecesOf true 0x200008 8) = false) ∧
    ((0x200004 : DWord).toNat % 8 == 0) = false ∧ (({ rmaState 0x200008 (.get 4) with mem := pagedMem } : State).touchAll 0
      (piecesOf true 0x200008 8)).walk 0x10000 0x200008 ≠ none := by decide +kernel

/-- The last event of a step in the previous start. -/
def judged (n e : Nat) : State := { State.reset with
  nym := { Nym.reset with boots := 5, journal := [⟨4, n, 0, 0, 0⟩, ⟨4, n, e, 0, 0⟩] } }
theorem test_hyp_boot : (∀ j ∈ State.reset.nym.journal, j.start ≠ State.reset.nym.boots) ∧ State.reset.nym.sill = .off ∧
    (∀ x ∈ ({ Nym.reset with fw := [] } : Nym).fw, (x.choose 0).isSome = true) ∧
    ([0, 2, 4, 6].all fun e => [6, 2, 10, 7].all fun n => (judged n e).nym.lastEvent n == some e) = true ∧
    ([1, 3, 5].all fun e => (judged 7 e).nym.lastEvent 7 == some e) = true ∧ State.reset.nym.lastEvent 7 = none ∧
    (∀ a : FwImage, Config.verify Config.firmwareKey (Config.sha256 a.body) a.signature = true →
      (⟨a, 0⟩ : FwSlot).qualifies 0 = true) ∧ (⟨⟨0, [], [], 3⟩, 0⟩ : FwSlot).qualifies 4 = false ∧
    (Nym.reset.pair? 0).isSome = true ∧ Nym.reset.pair? 7 = none ∧
    (∀ b, ({ Nym.reset with fw := [{ FwPair.factory 0 with bootedB := b }] } : Nym).pair? 0 =
      some { FwPair.factory 0 with bootedB := b }) ∧
    ({ Nym.reset with sill := .recovery } : Nym).sill = .recovery ∧ demo.nym.sill = .running := by
  refine ⟨by decide, by decide, by decide, by decide, by decide, by decide, ?_, ?_, by decide, by decide, fun _ => rfl, rfl, rfl⟩
  · intro a h
    simp [FwSlot.qualifies, h]
  · simp [FwSlot.qualifies]

/-- Arguments of the four functions: 1, -1, 128, -151, 2. -/
theorem test_hyp_functions : f32 0x3F800000 = .fin false 8388608 8388608 ∧ f32 0xBF800000 = .fin true 8388608 8388608 ∧
    f32 0x43000000 = .fin false 8388608 65536 ∧ f32 0xC3170000 = .fin true 9895936 65536 ∧
    f32 0x40000000 = .fin false 8388608 4194304 ∧ f32 (exp2F32 0x3F800000) = .fin false 8388608 4194304 ∧
    f32 (log2F32 0x40000000) = .fin false 8388608 8388608 ∧
    (f32 0x7FC00001).isNan = true := by decide +kernel

/-! ## Edges: a fence that holds, a home that has gone, a byte that is lost -/

/-- A fence of the first thread holds its path T accesses for flight 60, a store under way. -/
def fencedThread (r : Map 32) : Thread := { demoThread 1 0 with regs := r, fenceIds := [(.t, [60])] }
def fencedState (r : Map 32) : State := { inFlight (.store ⟨0, 0x210000⟩ [1]) [] with
  threads := [fencedThread r, demoThread 2 1] }
theorem test_hyp_fenced : (∀ i ∈ [Instr.prfm 2 3 0, .fence 0 0, .mapfill 3 5, .maprel 3],
      Issues (fencedState mapRegs) (fencedThread mapRegs) i) ∧
    (∀ i ∈ [Instr.kvlook 30 5, .dfdrop 30 5, .dfmark 30 15], Issues { fencedState kvRegs with mem := pagedMem } (fencedThread kvRegs) i) ∧
    (fencedState mapRegs).allDone ((fencedThread mapRegs).fenced .t) = false ∧ demo.allDone (demo1.fenced .t) = true ∧
    pathOf 0 = .t ∧ (∃ f ∈ (fencedState mapRegs).flights, f.owner = 1 ∧ f.applied = false ∧ f.op.writes = true) ∧
    (∀ f ∈ demo.flights, f.owner = 1 → f.applied = false → f.op.writes = false) ∧ pathOf 3 ≠ .t :=
  ⟨issues_all (by decide), issues_all (by decide), by decide, by decide, by decide, by decide, by decide, by decide⟩

/-- A member that its cancel has released, with a store to its scratchpad under way. -/
def goneMember : Member := { awayMember with st := .cancelled, divert := some [(0, .released), (0x10000, .released)] }
def goneHome : State := { inFlight (.store ⟨10, 0x40⟩ [1, 2]) [] with members := [demoMember, goneMember] }
theorem test_hyp_gone : goneHome.flight? 60 = some (demoFlight (.store ⟨10, 0x40⟩ [1, 2]) []) ∧
    goneHome.clear (demoFlight (.store ⟨10, 0x40⟩ [1, 2]) []) = true ∧ goneHome.homeOpen ⟨10, 0x40⟩ = true ∧
    goneHome.homeGone ⟨10, 0x40⟩ = true := by decide

/-- A barrier whose bytes are sound, one with a byte lost, an address that is no barrier's, one in a mapped region. -/
def lostByte : State := { demo with broken := [⟨2, 0x4F⟩] }
theorem test_hyp_barrier_traps : ∀ i ∈ [Instr.binit 3 1, .bexp 3 1, .barr 3 0, .btest 1 3 1, .bwait 5 3 1],
    Issues lostByte demo1 i ∧ (lostByte.begin demo1 i).member? 1 = some issued1 ∧
    (lostByte.begin demo1 i).barrierLoc issued1 0xFFFFFF8000000040 = .ok ⟨2, 0x40⟩ ∧
    (lostByte.begin demo1 i).homeOpen ⟨2, 0x40⟩ = true ∧
    (lostByte.begin demo1 i).settled ((lostByte.begin demo1 i).clkOf 1) = true ∧
    (lostByte.begin demo1 i).allDone (demo1.fenced .t) = true ∧ (lostByte.begin demo1 i).meetsError ⟨2, 0x40⟩ 16 = true := by
  have h : ∀ i ∈ [Instr.binit 3 1, .bexp 3 1, .barr 3 0, .btest 1 3 1, .bwait 5 3 1],
      issuesOk lostByte demo1 i = true ∧ (lostByte.begin demo1 i).member? 1 = some issued1 ∧
      barrierIs (lostByte.begin demo1 i) issued1 0xFFFFFF8000000040 ⟨2, 0x40⟩ = true ∧
      (lostByte.begin demo1 i).homeOpen ⟨2, 0x40⟩ = true ∧
      (lostByte.begin demo1 i).settled ((lostByte.begin demo1 i).clkOf 1) = true ∧
      (lostByte.begin demo1 i).allDone (demo1.fenced .t) = true ∧
      (lostByte.begin demo1 i).meetsError ⟨2, 0x40⟩ 16 = true := by decide
  intro i hi
  obtain ⟨h1, h2, h3, h4⟩ := h i hi
  exact ⟨issues_of h1, h2, barrier_of h3, h4⟩
/-- Whether an address is refused as a barrier's, and its cause. -/
def barrierBad (s : State) (m : Member) (a : DWord) (c : Nat) : Bool :=
  match s.barrierLoc m a with
  | .error x => x == c
  | .ok _ => false
theorem test_hyp_barrier_address : barrierBad demo demoMember 0xFFFFFF8000000048 0x0D2 = true ∧
    barrierBad (mapped 0x200000 [] []) (mapMember 0x200000 []) 0xFFFFFF8000000040 0x0D2 = true ∧
    (∀ i < 16, (((demo.tick 1 (agentT 1)).shadowOf ((⟨2, 0x40⟩ : Loc).plus i)).read (agentT 1)
      ((demo.tick 1 (agentT 1)).clkOf 1) 16).2 = false) := by decide

/-- What R202 and R217 refuse, check by check: no aperture, misaligned, beyond the scratchpad, no peer, beyond the
peer's, read only. -/
def trapRegs (lo hi : Word) : Map 32 := [(1, lo), (2, hi)]
def trapCase (lo hi : Word) (a : DWord) : Bool :=
  let s := withRegs (trapRegs lo hi)
  issuesOk s (thr (trapRegs lo hi)) (.stW 0 1 0) && mayOk (s.begin (thr (trapRegs lo hi)) (.stW 0 1 0)) (thr (trapRegs lo hi)) issued1 &&
    decide (asks s (thr (trapRegs lo hi)) (.stW 0 1 0) = some (.store a [0, 0, 0, 0]))
theorem trap_case {lo hi : Word} {a : DWord} (h : trapCase lo hi a = true) :
    Issues (withRegs (trapRegs lo hi)) (thr (trapRegs lo hi)) (.stW 0 1 0) ∧
    MayAccess ((withRegs (trapRegs lo hi)).begin (thr (trapRegs lo hi)) (.stW 0 1 0)) (thr (trapRegs lo hi)) issued1
      (.store a [0, 0, 0, 0]) ∧
    asks (withRegs (trapRegs lo hi)) (thr (trapRegs lo hi)) (.stW 0 1 0) = some (.store a [0, 0, 0, 0]) := by
  simp only [trapCase, Bool.and_eq_true, decide_eq_true_eq] at h
  exact ⟨issues_of h.1.1, may_of _ h.1.2, h.2⟩
theorem test_hyp_access_traps : trapCase 0 0x00800000 0x0080000000000000 = true ∧
    trapCase 1 0xFFFFFF80 0xFFFFFF8000000001 = true ∧ trapCase 0x40000 0xFFFFFF80 0xFFFFFF8000040000 = true ∧
    trapCase 0x1000000 0xFFFFFF81 0xFFFFFF8101000000 = true ∧ trapCase 0x40000 0xFFFFFF81 0xFFFFFF8100040000 = true := by
  refine ⟨by decide, by decide, by decide, by decide, by decide⟩
theorem test_hyp_access_edges : 2 ^ 51 ≤ (0x0080000000000000 : DWord).toNat ∧
    2 ^ 24 ≤ ((0x0080000000000000 : DWord) - 0xFFFFFF8000000000).toNat ∧
    2 ^ 26 ≤ ((0x0080000000000000 : DWord) - 0xFFFFFF8100000000).toNat ∧ (0xFFFFFF8000000001 : DWord).toNat % 4 ≠ 0 ∧
    issued1.desc.scratch * 65536 < 0x40000 + 4 ∧ issued1.core < 192 ∧ demo.peer issued1 1 = none ∧
    (demo.peer issued1 0).map (fun p => p.desc.scratch * 65536) = some 0x40000 ∧
    (let m : Member := { demoMember with regions := [⟨0, 1, 0x200000, false, [(0, .clean)], [], []⟩] }
     let s : State := { demo with members := [m] }
     targetIs s m 0xFFFFFF8000000040 4 (.scratch m 0x40) = true ∧ s.slotBarred m m 0x40 4 = false ∧
       m.divertAt 0x40 ≠ some .restoring ∧ m.regionAt 0x40 = some ⟨0, 1, 0x200000, false, [(0, .clean)], [], []⟩ ∧
       s.check m ⟨0xFFFFFF8000000040, 4, true, false⟩ = .deny 0x08D 0xFFFFFF8000000040) := by decide
/-- R217: the second word of an MMOV.W or MSWP.W is refused, its first one allowed. -/
def pairRegs (lo hi : Word) : Map 32 := [(3, 0x40), (4, 0xFFFFFF80), (5, lo), (6, hi)]
def roMember : Member := { demoMember with regions := [⟨0x10000, 1, 0x200000, false, [(0, .clean)], [], []⟩] }
def pairState (lo hi : Word) : State := { withRegs (pairRegs lo hi) with members := [roMember] }
theorem test_hyp_second_access :
    (Issues (pairState 1 0xFFFFFF80) (thr (pairRegs 1 0xFFFFFF80)) (.mswpW 3 5)) ∧
    (Issues (pairState 0x10000 0xFFFFFF80) (thr (pairRegs 0x10000 0xFFFFFF80)) (.mswpW 3 5)) ∧
    (MemOp.mswp 0xFFFFFF8000000040 0xFFFFFF8000010000).needs =
      [⟨0xFFFFFF8000000040, 4, true, false⟩, ⟨0xFFFFFF8000010000, 4, true, false⟩] ∧
    PassesLocal (pairState 1 0xFFFFFF80) roMember ⟨0xFFFFFF8000000040, 4, true, false⟩ ⟨2, 0x40⟩ ∧
    (∃ c, (pairState 1 0xFFFFFF80).target roMember 0xFFFFFF8000000001 4 = .error c) ∧
    targetIs (pairState 0x10000 0xFFFFFF80) roMember 0xFFFFFF8000010000 4 (.scratch roMember 0x10000) = true ∧
    (pairState 0x10000 0xFFFFFF80).check roMember ⟨0xFFFFFF8000010000, 4, true, false⟩ = .deny 0x08D 0xFFFFFF8000010000 := by
  refine ⟨issues_of (by decide), issues_of (by decide), by decide, local_of (by decide), ⟨0x081, rfl⟩, by decide, by decide⟩

/-- The ends of a MAPFLUSH: none, a page that is not there, a sector whose byte is lost, poison behind its page. -/
def dirtyMember (base : DWord) : Member := mapMember base [(0, .dirty 1)]
def dirtyState (base : DWord) (broken : List Loc) (poison : List Nat) : State := { mapped base [(0, .dirty 1)] poison with
  broken := broken }
def flushEnd (base : DWord) (broken : List Loc) (poison : List Nat) : Option BackEnd :=
  let s := dirtyState base broken poison
  ((s.tick 1 (agentT 1)).writeBack (agentT 1) ((s.tick 1 (agentT 1)).clkOf 1) 0 0 false (dirtyMember base)
    ⟨0, 1, base, true, [(0, .dirty 1)], [], []⟩ [(0, 0)]).2
theorem test_hyp_flush_ends : (⟨0, 1, 0x200000, true, [(0, .dirty 1)], [], []⟩ : Region).marked = [(0, 0)] ∧
    flushEnd 0x200000 [] [] = none ∧ flushEnd 0x210000 [] [] = some (.page 0 0x21) ∧
    flushEnd 0x200000 [⟨2, 0x3F⟩] [] = some (.error 0 0xFFFFFF8000000000) ∧ flushEnd 0x200000 [] [0x40] = some (.line 0) ∧
    (∀ i ∈ [Instr.maprel 3, .mapflush 3], Issues (withRegs mapRegs) (thr mapRegs) i) :=
  ⟨by decide, by decide +kernel, by decide +kernel, by decide +kernel, by decide +kernel, issues_all (by decide)⟩
/-- Threads that wait for a line, and for a walk. -/
theorem test_hyp_line_wait : ({ demo1 with wait := .fill (.store 0xFFFFFF8000000040 [1]) 1 0 } : Thread).waitsOnLine 1 0 = true ∧
    ({ demo with input := .id 1, threads := [{ demo1 with wait := .fill (.store 0xFFFFFF8000000040 [1]) 1 0 }] } : State).thread? 1 =
      some { demo1 with wait := .fill (.store 0xFFFFFF8000000040 [1]) 1 0 } := by decide

/-- A cause queued at the first word of a live prefix's run, at its label and not; a label that others are short of. -/
def coveredPending : Thread := { coveredThread with pendq := [⟨0x0C0, 9, none, false⟩] }
def coveredWith (t other : Thread) : State := { coveredSlot with input := .id 1, threads := [t, other] }
theorem test_hyp_covered : (coveredWith coveredPending (demoThread 2 1)).thread? 1 = some coveredPending ∧
    (coveredWith coveredPending (demoThread 2 1)).mayIssue coveredPending = true ∧
    (coveredWith coveredPending (demoThread 2 1)).isReady coveredPending = true ∧
    (coveredPending.uncover.pc, coveredPending.uncover.runs) = (0, []) ∧
    (coveredWith { coveredPending with marks := [(2, 60)] } (demoThread 2 1)).isReady
      { coveredPending with marks := [(2, 60)] } = false ∧
    (let t : Thread := { pendingThread with join := some 0 }
     let s : State := { demoSlot 0x3820C105 with threads := [t, { demoThread 2 1 with join := some 0, pc := 1 }] }
     s.isReady t = false ∧ t.wait = .none ∧ t.pendq ≠ [] ∧ ∃ x ∈ s.threads, x.crew = 1 ∧ x.join = some 0 ∧ x.pc ≠ 0) := by
  decide +kernel
/-- A thread at its label that is not met: a joint issue there waits (R129, R269). -/
theorem test_hyp_comes : (let s : State := { demo with threads := [demo1, { demoThread 2 1 with join := some 0 },
      { demoThread 3 2 with join := some 0, pc := 1 }] }
    s.comesTo { demoThread 2 1 with join := some 0 } (.shfl 5 1 2) 1 0 = true) := by decide

/-- A posting with a gate of its own, one without; the section whose counter it takes. -/
def demoPosting (gate : Word) : Posting := ⟨{ demoRec with gate := gate }, 0, 1, 7, 0, 1, 1, 5, false, none, [], []⟩
theorem test_hyp_post_gate : ∀ g ∈ [(3 : Word), 0xFFFFFFFF], (demo.post (demoPosting g)).isSome = true ∧
    (demo.sectionFor 0 (demoPosting g).desc none).isSome = true ∧ (∃ i < 262144, ∀ c ∈ demo.counters, c.sect = 0 → c.index ≠ i) := by
  intro g hg
  simp only [List.mem_cons, List.not_mem_nil, or_false] at hg
  rcases hg with rfl | rfl <;> exact ⟨by decide +kernel, by decide +kernel, 0, by decide, by decide⟩
/-- A message towards a section that has marked its job. -/
theorem test_hyp_move_marked : (({ moving false 1 none with marks := [⟨0, 1, 1⟩] } : State).marked 0 1 1 = true) ∧
    ({ moving false 1 none with marks := [⟨0, 1, 1⟩] } : State).member? 9 = some (waiting (.moving false)) ∧
    (({ moving false 1 none with marks := [⟨0, 1, 1⟩] } : State).acceptEntries 1 [9] []).2 = [9] := by decide +kernel
/-- A core with a resume in progress. -/
theorem test_hyp_gate_resume : (∃ m ∈ ({ gatedCore false none with
      members := [{ demoMember with divert := some [(0, .restoring)] }] } : State).members,
      m.core = 0 ∧ m.st = .running ∧ m.divert ≠ none) ∧
    (∀ m ∈ (publishing .boundary).members, m.core = 0 → m.st = .running → m.divert = none) := by decide

/-! ## Numbers, drains and the sieve -/

/-- The formats' roundings, quotients and orders have operands. -/
theorem test_hyp_rounding : (0 < 3 ∧ bf16.signed = true ∧ e3m5.signed = false) ∧
    (FVal.fin true 3 4).ratio = some (-(3 / 4) : ℚ) ∧ (FVal.fin false 1 2).ratio = some (1 / 2 : ℚ) ∧ ((1 / 2 : ℚ) ≠ 0) ∧
    bf16.round .rn false (.fin true 257 256) = (0xBF80, false) ∧ bf16.round .rn false (.fin false 259 256) = (0x3F82, false) ∧
    e4m3.round .rn true (.fin false 500 1) = (0x7E, true) := by
  refine ⟨by decide, ?_, ?_, by norm_num, by decide, by decide, by decide⟩ <;> norm_num [FVal.ratio]
/-- R249: the tree of four words, the prefixes of three. -/
theorem test_hyp_reduce : ([1, 2] : List Word).length = 2 ^ 1 ∧ reduceTree (reduceOp 1) 2 [1, 2, 3, 4] = 10 ∧
    ([5, 6, 7] : List Word)[1]? = some 6 ∧ scanTo (reduceOp 1) [5, 6, 7] 2 = 18 := by decide
/-- Tiles of every format that a step takes. -/
theorem test_hyp_steps : ([0x0401, 0x0802, 0x0C03, 0x1004, 0x1405, 0x1806] : List Word).map cfgFmt = [1, 2, 3, 4, 5, 6] := by
  decide
theorem test_hyp_drain_rows : 0 < cfgRows demoTile.word0 ∧ 0 < ((0x07000000 : Word).extractLsb' 16 6).toNat + 1 ∧
    8 * (((0x07000000 : Word).extractLsb' 24 3).toNat + 1) = 64 := by decide

/-- An entry that a SIEVE scores: its tenant and block are the sieve's, its sidecar and bitmap byte pass. -/
def sieveActor1 : Actor := ⟨71, [], 1, 192, .s⟩
theorem test_hyp_sieve_entry :
    (sieveState []).sieveEntry sieveMember 2 0 = some (demoEntry true false) ∧ (demoEntry true false).transit = false ∧
    (sieveState []).sieveEntry sieveMember 3 0 = none ∧ (sieveState []).sieveEntry sieveMember 2 1 = none ∧
    rowOk ((sieveState []).checkPieces 1 (piecesOf false (localBase + 0x100) 8)) = true ∧
    rowOk ((sieveState []).checkPieces 1 (piecesOf true (localBase + 0x300) 1)) = true ∧
    rowOk ({ sieveState [] with mem := [(0x10000, 1), (0x10002, 2), (0x20000, 1), (0x20002, 3), (0x30180, 7), (0x30182, 4),
        (0x301A0, 7), (0x301A2, 5)] }.checkPieces 1
      (piecesOf false (BitVec.ofNat 64 (sideAt ⟨4, 0x300000, 0x340000, 8⟩ 2)) (32 * 64))) = true ∧
    ((List.range 64).map fun _ => (0 : Int)).length = 64 := by decide +kernel
theorem test_hyp_sieve_bit : (sieveState []).landsAt 1 true (localBase + BitVec.ofNat 64 0x300) 1 ⟨2, 0x300⟩ ∧
    sieveActor1.member = sieveMember.id :=
  ⟨lands_of (by decide +kernel), rfl⟩
/-- R350: a score of 60 against thresholds 60 and 61, and a sink token. -/
theorem test_sieve_byte : sieveByte ⟨60, 0, 0, 0⟩ (60 :: List.replicate 63 0) 64 0 1 [1] = 1 ∧
    sieveByte ⟨61, 0, 0, 0⟩ (60 :: List.replicate 63 0) 64 0 1 [1] = 0 ∧
    sieveByte ⟨61, 1, 0, 0⟩ (60 :: List.replicate 63 0) 64 0 1 [1] = 1 := by decide +kernel

/-! ## Checks, causes and failures of the words (WordChecks, CrewChanges, FrameWords, FrameStarts, StageGuard) -/

/-- R46, R95: an engine that the core lacks, a hidden instruction, a guard run over FRAME, neither of them. -/
def masked (core n : Nat) : State := { demo with members := [{ demoMember with core := core, mask := BitVec.twoPow 32 n }] }
theorem test_word_checks : (masked 0 31).wordCause demo1 0xE820014D = some 0x005 ∧
    (masked 192 31).wordCause { demo1 with core := 192 } 0xB1200000 = some 0x005 ∧
    (masked 0 0).wordCause demo1 0xB1200000 = some 0x006 ∧ (masked 0 1).wordCause demo1 0xB1200000 = none ∧
    (masked 0 10).wordCause demo1 (encode (.bkpt 5)) = some 0x006 ∧ (masked 0 7).wordCause demo1 (encode (.ringsub 5 8)) = none ∧
    (masked 0 7).wordCause demo1 (encode (.ringsubIn 5 8)) = some 0x006 ∧
    (masked 0 0).wordCause demo1 (encode (.cpyaIn 0 3 13)) = some 0x006 ∧
    (masked 0 0).issueCause demo1 .mrel = some (0x006, 0) := by decide
/-- R92, R99, R185: a pair of names 95 and 96 in a bent, runs that a prefix breaks, girt writes. -/
def writtenGirt : Frame := { demoFrame with ring := [⟨0, 1, 0, 7, true, true, []⟩] }
def girtWritten : State := { demoBent with frames := [writtenGirt] }
theorem test_issue_causes : demoBent.issueCause bent1 (.add64 95 1 3) = some (0x009, 0) ∧
    demo.issueCause demo1 (.add64 95 1 3) = none ∧ demo.issueCause demo1 (.ringsub 5 0) = some (0x009, 0) ∧
    (demoOf [0x20001000, 0x30200082]).issueCause demo1 (.guard 0 0) = some (0x00A, 0) ∧
    demo.issueCause { demo1 with runs := [⟨false, 0, 2⟩] } (.guard 0 1) = some (0x00A, 0) ∧
    demo.issueCause { demo1 with runs := [⟨false, 0, 3⟩] } (.guard 0 1) = none ∧
    demo.issueCause { demo1 with runs := [⟨false, 0, 9⟩, ⟨false, 0, 9⟩] } (.guard 0 0) = some (0x00A, 0) ∧
    demoBent.issueCause bent1 (.add 97 1 2) = some (0x107, 97) ∧ girtWritten.issueCause bent1 (.add 100 1 2) = some (0x108, 100) ∧
    girtWritten.issueCause bent1 (.add 96 1 2) = none ∧ demoBent.issueCause bent1 (.add 100 1 2) = none := by decide

/-- R133, R145 to R147: a member that may make no crew, one alone in its crew, a lane of a bent, crews that no thread
may join. -/
def noCrews : State := { demo with members := [{ demoMember with desc := { demoRec with spcrews := 0 } }] }
theorem test_hyp_crew_failures : (∀ i ∈ [Instr.crewnew 5 2, .leave 5], Issues noCrews demo1 i ∧
      (noCrews.begin demo1 i).canMakeCrew { demoMember with desc := { demoRec with spcrews := 0 } } = false) ∧
    Issues demo demo1 (.crewnew 5 0) ∧ demo.name demo1 0 = 0 ∧ Issues demo demo1 (.crewnew 5 3) ∧ (demo.name demo1 3).toNat = 64 ∧
    Issues demo demo1 (.crewnew 5 4) ∧ 64 < (demo.name demo1 4).toNat ∧
    (∀ i ∈ [Instr.join 5 1, .leave 5], Issues demoBent bent1 i ∧ demoBent.inBent bent1 = true) ∧
    Issues demo demo1 (.join 5 1) ∧ demo.crewById 0 1 7 = none ∧
    demo.crewById 0 1 0x80000000 = some ⟨1, 0, 0, 0, 1, 4, none, true, []⟩ ∧ demoBent.isFrameCrew 1 = true ∧
    demoBent.crewById 0 1 0x80000001 = some ⟨2, 0, 0, 1, 1, 4, some (50, 0), true, []⟩ ∧
    (∀ l < 2, l ∈ ({ twoCrews with threads := twoCrews.threads ++ [{ demoThread 5 0 with crew := 2 },
      { demoThread 6 1 with crew := 2 }] } : State).heldLanes 2) ∧
    (({ demo with threads := [demo1] } : State).crewThreads 1).length = 1 ∧
    Issues { demo with threads := [demo1] } demo1 (.leave 5) := by
  refine ⟨?_, issues_of (by decide), by decide, issues_of (by decide), by decide, issues_of (by decide), by decide, ?_,
    issues_of (by decide), by decide, by decide, by decide, by decide, by decide, by decide, issues_of (by decide)⟩
  · exact fun i hi => ⟨issues_all (l := [Instr.crewnew 5 2, .leave 5]) (by decide) i hi, by
      simp only [List.mem_cons, List.not_mem_nil, or_false] at hi
      rcases hi with rfl | rfl <;> decide⟩
  · exact fun i hi => ⟨issues_all (l := [Instr.join 5 1, .leave 5]) (by decide) i hi, by decide⟩

/-- R178, R179: the operands of FRAME that each check refuses, a pool with no room, a trip count of 0. -/
theorem test_frame_causes :
    (let s := gathering [0x30200082, 0x30400000]
     s.frameCause demoMember gathered1 2 4 0x132 = some (0x100, 0x132) ∧ s.frameCause demoMember gathered1 2 4 0x31 = some (0x100, 0x31) ∧
     s.frameCause demoMember gathered1 2 0xFFFFFFF1 0x32 = some (0x10B, 0xFFFFFFF1) ∧
     s.frameCause { demoMember with desc := { demoRec with depth := 1 } } gathered1 2 4 0x32 = some (0x101, 2) ∧
     s.frameCause demoMember gathered1 2 4 0x36 = some (0x103, 0) ∧ s.frameCause demoMember gathered1 2 0 0x32 = none) ∧
    (gathering [0x30200082, 0x00200000]).frameCause demoMember gathered1 2 4 0x32 = some (0x104, 0) ∧
    ({ gathering [0x30200082, 0x30400000] with members := [{ demoMember with desc := { demoRec with regs := 7 } }] } : State).frameCause
      { demoMember with desc := { demoRec with regs := 7 } } gathered1 2 4 0x32 = some (0x102, 112) ∧
    (∀ x ∈ (gathering [0x30200082, 0x30400000]).frames, x.fid ≠ (gathering [0x30200082, 0x30400000]).nextId) := by
  decide +kernel

/-- SGUARD and FRAMEEND outside a bent, FBREAK outside a stage run; a lane whose slot a live prefix of stage 2 begins. -/
def coveredLane : Thread := { bent1 with pc := 1, wait := .covered 0 [] 0, reached := 2, runs := [⟨true, 2, 5⟩] }
def coveredBent : State := { demoBent with threads := demo.threads ++ [coveredLane] }
theorem test_hyp_stage_outside : Issues demo demo1 (.sguard 1 3) ∧ demo.bentOf demo1 = none ∧ Issues demo demo1 .frameend ∧
    demo.inBent demo1 = false ∧ Issues demoBent bent1 .fbreak ∧ (∀ r ∈ bent1.runs, r.stageKind = false) ∧
    coveredBent.bentOf coveredLane = some (demoFrame, 0) ∧
    (demoFrame.bents.find? fun x => x.k == 0) = some ⟨0, 2, [], [], [], []⟩ ∧
    Issues coveredBent coveredLane (.sguard 1 3) ∧ demoFrame.lockstepOpen 0 1 = true ∧ 1 < coveredLane.reached :=
  ⟨issues_of (by decide), by decide, issues_of (by decide), by decide, issues_of (by decide), by decide, by decide, by decide,
    issues_of (by decide), by decide, by decide⟩
/-- R183: bent 2 comes to stage 0 while bent 1 stands at the first word that its live SGUARD of stage 1 covers; taken back
to that SGUARD, bent 1 evaluates it again. -/
def bentOne : State := { heldBack with frames := [{ demoFrame with bents := [⟨1, 2, [], [], [], []⟩] }] }
theorem test_passes_early :
    (match exec (.sguard 1 3) bentOne with
     | .next s => (s.frames.map fun f => f.lockstepOpen 2 0, (s.thread? 3).map fun t => (t.reached, t.uncover.reached))
     | _ => ([], none)) = ([true], some (1, 0)) := by decide

/-! ## Barriers, rings, copies and pages that fail (BarrierUpdates, CopyLife, KvUnitSteps, SieveEntries) -/

/-- R304: a barrier whose expected count is 2^32 - 1. -/
def fullBarrier : State := { demo with members := [{ demoMember with scratch := Memory.put [] 0x40 (leBytes 4 0xFFFFFFFF) }] }
theorem test_hyp_bexp_over : Issues fullBarrier demo1 (.bexp 3 1) ∧
    ReachesBarrier (fullBarrier.begin demo1 (.bexp 3 1)) demo1 0xFFFFFF8000000040 ⟨2, 0x40⟩ ∧
    2 ^ 32 ≤ ((fullBarrier.begin demo1 (.bexp 3 1)).lookBarrier demo1 ⟨2, 0x40⟩).2.expected + (fullBarrier.name demo1 1).toNat :=
  ⟨issues_of (by decide), ⟨⟨_, rfl, barrier_of (by decide)⟩, by decide, by decide, by decide, by decide⟩, by decide⟩

/-- A step of the KV unit with a byte of a page lost, and with none; a bitmap byte that may not be written. -/
theorem test_hyp_failures : (kvAsk (demoUnit (demoEntry true false)) (.look (demoKey 0))).broken = [] ∧
    ({ kvAsk (demoUnit (demoEntry true false)) (.look (demoKey 0)) with broken := [⟨0, 0x40⟩] } : State).broken ≠ [] ∧
    (match listDenied.checkPieces 1 (piecesOf true (localBase + 0x300) 1) with | .fail c _ => c == 0x08D | _ => false) = true ∧
    ({ getting with fail := some (0x082, 1, 0x40) } : Copy).fail ≠ none ∧
    (∀ st ∈ [MState.done, .suspended], ({ stopping .saving .none with members := [{ demoMember with st := st, stop := .saving }] } :
      State).member? 1 = some { demoMember with st := st, stop := .saving } ∧ st ≠ .running) := by decide +kernel

/-- R482: a page that is there, with its leaf beside the bytes; a piece of one line and one that two lines share. -/
theorem test_hyp_move_bytes : (({ demo with mem := pagedMem } : State).walk (demo.rootOf 0) 0x200010).map (fun v =>
      (v.pa, decide (∀ i < 8, v.pa + i < v.leafAt ∨ v.leafAt + 8 ≤ v.pa + i))) = some (0x40010, true) ∧
    ({ demo with mem := pagedMem } : State).poison.contains (0x40010 / 4096) = false ∧
    ({ demo with mem := pagedMem } : State).meetsError ⟨0, 0x40010⟩ 8 = false ∧
    (∀ i < 8, ((({ demo with mem := pagedMem } : State).shadowOf ((⟨0, 0x40010⟩ : Loc).plus i)).read 402 [(402, 1)] 0).2 = false) ∧
    (piecesOf false 0x200FFC 8).map (fun p => (p.addr, p.size)) = [(0x200FFC, 4), (0x201000, 4)] ∧
    (piecesOf true 0x200010 8).map (fun p => (p.addr, p.size)) = [(0x200010, 8)] ∧ Memory.wf pagedMem = true ∧
    requestOk (hdr 5 0 1) .empty = true ∧ demo.part? 0 ≠ none := by decide +kernel

/-- R30: a start after one that completed step 4 and failed nowhere. -/
theorem test_hyp_boot_again : (∀ n, 1 ≤ n → n ≤ 12 →
    ({ (judged 4 1).nym with boots := 5 } : Nym).lastEvent n ∈ [none, some 1, some 3, some 5]) ∧
    ({ (judged 4 1).nym with boots := 5 } : Nym).lastEvent 4 = some 1 := by decide

/-! ## Results that the manual works out -/

/-- Encodings worked out in R97, spec/07, R220, R376 and R377 to R386. -/
theorem test_example_words : decodesAll [(0x20082000, .guard 2 2), (0x200A2000, .guardn 2 2), (0x3820C082, .add 3 1 2),
    (0x440C1003, .shli 6 4 3), (0x643E5002, .ldW 31 20 2), (0x78E14A07, .axchg 5 20 ⟨0, false, false, true, 3⟩),
    (0x81200107, .tbarP 2 7), (0x8220C200, .mwaitm 3 4), (0x80200000, .phase), (0x80400002, .fence 0 2),
    (0x80400101, .fence 2 1)] = true := by decide

/-- A register of the first thread after one word, and its saturation flag. -/
def after (regs : Map 32) (i : Instr) (d : Nat) : Option (Word × Bool) :=
  match exec i (withRegs regs) with
  | .next s => (s.thread? 1).map fun t => (Map.get t.regs d, t.sat)
  | _ => none

/-- R157: divisions by zero and of the most negative number; the sign of a remainder. -/
theorem test_divide : after [(1, 9)] (.div 5 1 2) 5 = some (0xFFFFFFFF, false) ∧
    after [(1, 0x80000000), (2, 0xFFFFFFFF)] (.div 5 1 2) 5 = some (0x80000000, false) ∧
    after [(1, 0xFFFFFFF9), (2, 2)] (.rem 5 1 2) 5 = some (0xFFFFFFFF, false) ∧
    after [(1, 9)] (.remu 5 1 2) 5 = some (9, false) := by decide +kernel
/-- R158: a count of 32 shifts by 0; R156: MULW over its own source. -/
theorem test_shift_mulw : after [(1, 7), (2, 32)] (.shl 5 1 2) 5 = some (7, false) ∧
    after [(4, 0xFFFFFFFF), (5, 2)] (.mulw 4 4 5) 4 = some (0xFFFFFFFE, false) ∧
    after [(4, 0xFFFFFFFF), (5, 2)] (.mulw 4 4 5) 5 = some (0xFFFFFFFF, false) := by decide +kernel
/-- The stochastic rounding recipe of spec/11: CVTT to BF16; R241: FMAX of +0 and -0. -/
theorem test_cvtt_fmax : after [(1, 0x3F80FFFF)] (.cvtt 5 1 0 0) 5 = some (0x3F80, false) ∧
    after [(1, 0x3F810000)] (.cvtt 5 1 0 0) 5 = some (0x3F81, false) ∧
    after [(1, 0x80000000)] (.fmax 0 5 1 2) 5 = some (0, false) := by decide +kernel
/-- The examples of spec/12 behind R267: SHRRS.s8 and PMAC16. -/
theorem test_packed : after [(1, 200), (2, 4)] (.shrrsS8 5 1 2) 5 = some (12, false) ∧
    after [(1, 2056), (2, 3)] (.shrrsS8 5 1 2) 5 = some (127, true) ∧
    after [(1, 4), (2, 5), (5, 0x7FFFFFF0)] (.pmac16 5 1 2) 5 = some (0x7FFFFFFF, true) := by decide +kernel
/-- The step worked out behind R251: g is added in one rounding. -/
theorem test_fp4_step : cellStep ⟨0, 0x1C06, 0x3E80⟩ ⟨1, 0x1C06, 0x4000⟩ ⟨0x93507C12, 0x2A261244, 0x48, 0x60⟩ 0x4B800000 0 =
    0x4B800001 := by decide +kernel
/-- The scale worked out behind R265. -/
theorem test_scale : drainScale 0x3E80 [fp32.value 0x40A00000] = 0x96 := by decide +kernel

/-! ## Where checks fail, and further forms -/

/-- PowersAndLogarithms: arguments that are no integers or powers of two, 0, and those at the edges. -/
theorem test_hyp_powers : f32 0x3F000000 = .fin false 8388608 16777216 ∧ 8388608 < 128 * 16777216 ∧
    f32 0 = .fin false 0 (2 ^ 149) ∧ f32 0x42FFFFFF = .fin false 16777215 131072 ∧ 16777215 < 128 * 131072 ∧
    f32 0xC3160000 = .fin true 9830400 65536 ∧ f32 0x40400000 = .fin false 12582912 4194304 ∧ (12582912 : Nat) ≠ 0 := by
  decide +kernel

/-- MatrixTraps: words of the array whose operands, owner or member fail a check. -/
def badTile : Map 32 := [(1, 0x3C78), (3, 0x41), (5, 0x80), (6, 0x3FFE8), (7, 0x41), (8, 0xFFFFFF80)]
def badArray : State := { withRegs badTile with
  members := [{ arrayMember with desc := { demoRec with flags := 0 } }], cores := [Core.fresh 0] }
theorem test_hyp_matrix_traps : (∀ i ∈ [Instr.mcfg 9 1 0, .mcfg 0 1 0, .mrdc 5 9, .macq 5, .mrel, .mld 0 3 5, .mst 0 6 0, .mma 0 9,
      .mma 0 2, .mzero, .shiftout 9, .shiftin 4, .accclr 4, .drainqBf16 0 7 9, .drainqE4m3 1 7 9, .drainqE5m2 1 7 9,
      .drainqE2m1 1 7 9], IssuesJointly badArray (thr badTile) i [thr badTile, thr2 badTile]) ∧
    (∀ x ∈ [thr badTile, thr2 badTile], badArray.trapHeld x.uid = false) ∧ (badArray.core 0).mq.length < 8 ∧
    badArray.member? 1 = some { arrayMember with desc := { demoRec with flags := 0 } } ∧ (badArray.core 0).owner ≠ some 1 ∧
    mcfgCause arrayMember 0 0x3C78 0 = some (0x0C2, 0x3C78) ∧ mcfgCause arrayMember 0 0x243C76 0 = some (0x0C0, 9) ∧
    mcfgCause { arrayMember with mask := 2 } 0 0x3C75 0 = some (0x006, 0) ∧
    badArray.tileMoveCause arrayMember (thr badTile) 0 3 5 = some (0x0C7, 0x41) ∧
    badArray.tileMoveCause arrayMember (thr badTile) 0 6 0 = some (0x082, 0xFFFFFF800003FFE8) ∧
    badArray.tileMoveCause arrayMember (thr badTile) 2 3 5 = some (0x0C3, 2) ∧
    arrayMember.mmaCause 0 2 = some (0x0C3, 2) ∧
    ({ arrayMember with tcfg := [(0, 0x3C71), (1, 0x3C72)] } : Member).mmaCause 0 1 = some (0x0C4, 1) ∧
    badArray.drainCause arrayMember .bf16 0xFFFFFF8000000041 0 0 0 = some (0x0C7, 0) ∧
    badArray.drainCause arrayMember .bf16 0xFFFFFF8000040000 0 0 0 = some (0x082, 0xFFFFFF8000040000) := by
  refine ⟨jointly_all (by decide), by decide, by decide, by decide, by decide, by decide, by decide, by decide, by decide,
    by decide, by decide, by decide, by decide, by decide, by decide⟩

/-- CopyTraps: shapes in v5 with a zero row count, a ring, an arrival and a counter that fail. -/
def badShape (w1 w3 : Word) : Map 32 := [(1, 0x40), (2, 0xFFFFFF80), (3, 0x800), (4, 0xFFFFFF80), (5, 16), (6, w1), (8, w3), (9, 77)]
def badCopy (w1 w3 : Word) : State := { withRegs (badShape w1 w3) with parts := copyState.parts }
theorem test_hyp_copy_traps : (∀ i ∈ [Instr.cpy 3 1 5, .cpym 3 1 5, .cpyaOut 9 3 3, .cpyaIn 0 1 5, .cpynPut 3 1 5, .cpynGet 3 1 5],
      Issues (badCopy 2 0x20000000) (thr (badShape 2 0x20000000)) i ∧
      (badCopy 2 0x20000000).entryReady i (thr (badShape 2 0x20000000)) = true) ∧
    (badCopy 2 0).member? 1 = some demoMember ∧
    (badCopy 0 0).cpyCause demoMember (thr (badShape 0 0)) 3 1 5 = some (0x0D0, 0) ∧
    (badCopy 2 0x19000000).cpyCause demoMember (thr (badShape 2 0x19000000)) 0 1 5 = some (0x0D5, 9) ∧
    (badCopy 2 0x11000000).cpyCause demoMember (thr (badShape 2 0x11000000)) 0 1 5 = some (0x0D6, 1) ∧
    (badCopy 2 0x80FFFFF0).cpyCause demoMember (thr (badShape 2 0x80FFFFF0)) 3 1 5 = some (0x0D2, 0xFFFFFF8000FFFFF0) ∧
    (badCopy 2 0x20000000).cpyCause demoMember (thr (badShape 2 0x20000000)) 3 1 5 = some (0x141, 77) ∧
    (badCopy 2 0).cpymCause demoMember (thr (badShape 2 0)) 3 1 5 = some (0x0D4, 0) ∧
    (badCopy 2 0).cpyaCause demoMember (thr (badShape 2 0)) 9 3 3 = some (0x0C1, 9) ∧
    (badCopy 2 0).cpyaCause demoMember (thr (badShape 2 0)) 0 2 7 = some (0x082, 0xFFFFFF80FFFFFF80) ∧
    (badCopy 2 0).cpyaCause demoMember (thr (badShape 2 0)) 0 6 0 = some (0x0DD, 2) ∧
    (badCopy 0x10002 0).cpynCause demoMember (thr (badShape 0x10002 0)) false 1 5 = some (0x0D8, 1) ∧
    ({ demoRec with cqcrew := 0 } : LaunchRec).cqcrew = 0 := by
  refine ⟨?_, ?_⟩
  · intro i hi
    refine ⟨issues_all (l := [Instr.cpy 3 1 5, .cpym 3 1 5, .cpyaOut 9 3 3, .cpyaIn 0 1 5, .cpynPut 3 1 5, .cpynGet 3 1 5])
      (by decide) i hi, ?_⟩
    revert i
    decide
  · decide +kernel

/-- MapWords: a config with a reserved bit, a base outside the ranges, a mapped unit, a seventeenth region. -/
theorem test_hyp_mapset_traps : (∀ r ∈ [([(1, 0x200000), (4, 0x81)] : Map 32), [(1, 0x1F0000), (4, 1)]],
      Issues (withRegs r) (thr r) (.mapset 4 1 3)) ∧ inRanges (demo.rangesOf 0) 0x1F0000 65536 = false ∧
    ((⟨0, 1, 0x300000, true, [], [], []⟩ : Region).off < 0 + 1 * 65536) ∧
    16 ≤ (List.replicate 16 (⟨0, 1, 0x300000, true, [], [], []⟩ : Region)).length ∧
    ({ withRegs mapRegs with flights := [demoFlight (.store ⟨2, 0x40⟩ [1]) []] } : State).inbound demoMember 0 65536 = true := by
  refine ⟨?_, by decide, by decide, by decide, by decide⟩
  intro r hr
  simp only [List.mem_cons, List.not_mem_nil, or_false] at hr
  rcases hr with rfl | rfl <;> exact issues_of (by decide)

/-- GatheringReleases: a keep of a window 0, of 17 drafts, of a member without windows. -/
theorem test_hyp_keep_traps : ((gathering [0xF0614500]).keepCause gathered1 10).isSome = true ∧
    ((gathering [0xF0614500]).keepCause { gathered1 with regs := [(10, 9)] } 10) = some (0x090, 9) ∧
    ((gathering [0xF0614500]).keepCause { gathered1 with regs := [(11, 1), (12, 17)] } 10) = some (0x090, 17) ∧
    ({ gathering [0xF0614500] with members := [{ demoMember with desc := { demoRec with flags := 0 } }] } : State).keepCause
      gathered1 10 = some (0x093, 0) ∧
    ({ gathering [0xF0614500] with parts := [] } : State).keepCause gathered1 10 = some (0x0E9, 0) := by decide

/-- YardRequests: a done handle that names no counter; args blocks beyond the aperture and misaligned. -/
def yputRegs (done off : Word) : Map 32 := [(5, 0xFFFFFFFF), (6, done), (7, off), (8, 2)]
theorem test_hyp_yput_traps : (∀ r ∈ [yputRegs 5 0, yputRegs 0xFFFFFFFF 0x1000001, yputRegs 0xFFFFFFFF 2],
      Issues (withRegs r) (thr r) (.yput 20 1 5)) ∧ (∀ c ∈ demo.counters, c.handle ≠ 5) ∧
    (2 ^ 24 ≤ (0x1000001#32).toNat) ∧ ((2#32).toNat < 2 ^ 24 ∧ (2#32).toNat % 4 ≠ 0) := by
  refine ⟨?_, by decide, by decide, by decide⟩
  intro r hr
  simp only [List.mem_cons, List.not_mem_nil, or_false] at hr
  rcases hr with rfl | rfl | rfl <;> exact issues_of (by decide)

/-- KvTraps: sequence 9 of 8, a count of 65, window 0, 17 drafts; DFMARK at a page that is not writable, and over a ring. -/
def badKv : Map 32 := [(5, 9), (8, 65), (10, 1), (11, 1), (12, 17), (13, 65), (15, 1), (16, 1), (17, 0x200000), (19, 0x100), (20, 16)]
def markingState : State := { withRegs badKv with mem := pagedMem, members := [{ demoMember with barriers := [0x100] }] }
theorem test_hyp_kv_traps : (∀ i ∈ [Instr.kvlook 30 5, .kvalloc 30 10, .kvfree 30 5, .kvshare 30 10 5, .dfopen 30 10, .dfdrop 30 20,
      .dfq 30 5, .dfmark 30 10], Issues (withRegs badKv) (thr badKv) i) ∧
    Issues markingState (thr badKv) (.dfmark 30 15) ∧ (demo.pool? 0).map (·.seqs) = some 8 ∧
    (markingState.begin (thr badKv) (.dfmark 30 15)).member? 1 = some { demoMember with barriers := [0x100], issue := 1 } ∧
    rowOk ((markingState.begin (thr badKv) (.dfmark 30 15)).markChunks { demoMember with barriers := [0x100] }
      (markingState.markArgs (thr badKv) 15)) = true ∧
    (∃ x ∈ ({ demoMember with barriers := [0x100] } : Member).barriers, x < 0x100 + 16 * 16 ∧ 0x100 < x + 16) ∧
    (match ({ markingState with poison := [0x40] } : State).markChunks demoMember (markingState.markArgs (thr badKv) 15) with
      | .fail c x => c == 0x087 && x == 0x200000
      | _ => false) = true := by
  refine ⟨issues_all (by decide), issues_of (by decide), by decide, by decide, by decide, by decide, by decide⟩

/-- GirtNames: slot 1 of lane 0 at bents 0 and 1, pegged and not; a bent with no predecessor of the age. -/
def girted (w p : Bool) : State := { heldBack with frames := [{ demoFrame with
  bents := [⟨0, 3, [], [], [], []⟩, ⟨1, 2, [], [], [], []⟩], ring := [⟨0, 1, 0, 7, true, p, []⟩, ⟨1, 1, 0, 9, w, p, []⟩] }] }
theorem test_hyp_girt_names : (∀ w ∈ [true, false], ∀ p ∈ [true, false], ∃ f, (girted w p).bentOf bent1 = some (f, 1) ∧
      (f.ring.find? fun x => x.k == 1 && x.slot == 1 && x.lane == bent1.lane) = some ⟨1, 1, 0, 9, w, p, []⟩ ∧
      (f.ring.find? fun x => x.k == 0 && x.slot == 1 && x.lane == bent1.lane) = some ⟨0, 1, 0, 7, true, p, []⟩ ∧
      (f.ring.find? fun x => x.k == 0 && x.slot == 2 && x.lane == bent1.lane) = none) ∧
    ((100 - 96) / 4, (100 - 96) % 4, (103 - 96) % 4) = (1, 0, 3) ∧
    ((girted true true).threads.find? fun x => x.crew == 1 && x.lane == bent1.lane) = some demo1 := by
  refine ⟨?_, by decide, by decide⟩
  intro w hw p hp
  simp only [List.mem_cons, List.not_mem_nil, or_false] at hw hp
  rcases hw with rfl | rfl <;> rcases hp with rfl | rfl <;> exact ⟨_, rfl, rfl, rfl, rfl⟩

/-- BentRetired: the last bent of a frame of two iterations and one stage, and one with a bent behind it. -/
def lastBent : Frame := { demoFrame with
  n := 2, s := 1, next := 2, retired := 1, bents := [⟨1, 2, [], [], [0], []⟩]
  ring := [⟨0, 1, 0, 7, true, true, []⟩, ⟨1, 1, 0, 9, true, true, []⟩] }
def oneBehind : Frame := { demoFrame with bents := [⟨0, 2, [], [], [0], []⟩, ⟨1, 3, [], [], [], []⟩] }
def retiring (f : Frame) : State := { demoBent with
  input := .id 50, threads := demo.threads, frames := [f] }
theorem test_hyp_bent_retires : (lastBent.bents.find? fun x => lastBent.canRetire x) = some ⟨1, 2, [], [], [0], []⟩ ∧
    (lastBent.bents.all fun x => x.k == 1) = true ∧ lastBent.n + lastBent.s < lastBent.next + 2 ∧
    (oneBehind.bents.find? fun x => oneBehind.canRetire x) = some ⟨0, 2, [], [], [0], []⟩ ∧
    (oneBehind.bents.any fun x => x.k != 0) = true ∧
    (∀ f ∈ [lastBent, oneBehind], (retiring f).frame? 50 = some f ∧ (retiring f).memberRuns f.member = true ∧ f.crew ≠ 2 ∧
      0 ∈ f.lanes) ∧ (demo.threads.map (·.uid)).Nodup ∧ (∀ t ∈ demo.threads, Map.wf t.seeds = true) ∧
    (∃ t ∈ demo.threads, t.crew = 1) := by decide

/-- KvEffects: a key that is found, one that is absent, with room and in a full table; a provisional entry and its opener. -/
def draftEntry : KvEntry := { demoEntry true false with provisional := true, window := 3 }
def openWindow : Window := ⟨1, 3, 1, 64, 2, [], [(demoKey 5, 9)]⟩
def draftUnit : KvUnit := { demoUnit draftEntry with windows := [openWindow] }
def fullUnit : KvUnit := { demoUnit (demoEntry true false) with
  entries := (List.range 4).map fun i => { demoEntry true false with page := i, key := demoKey (10 + i) } }
theorem test_hyp_kv_effects : (demoUnit (demoEntry true false)).lookup 4 (demoKey 0) = some (demoEntry true false) ∧
    (demoUnit (demoEntry true false)).lookup 4 (demoKey 6) = none ∧
    ((demoUnit (demoEntry true false)).place 4 (newEntry (demoKey 6) 1 false false 5 0)).isSome = true ∧
    fullUnit.lookup 4 (demoKey 6) = none ∧ fullUnit.place 4 (newEntry (demoKey 6) 1 false false 5 0) = none ∧
    (demoSeq.live, demoSeq.poisoned, demoSeq.tenant, demoSeq.window, demoSeq.pfx) = (true, false, 1, 0, 0) ∧
    draftUnit.lookup 4 (demoKey 0) = some draftEntry ∧ draftUnit.mine? 1 1 = some openWindow ∧ draftUnit.mine? 1 2 = none ∧
    draftUnit.window? 1 = some openWindow ∧ openWindow.touched.length < 8192 ∧ (demoUnit draftEntry).window? 1 = none ∧
    8192 ≤ ({ openWindow with touched := List.replicate 8192 (demoKey 5, 9) } : Window).touched.length ∧
    (∀ t ∈ openWindow.touched, t.1 ≠ demoKey 0) ∧ (demoEntry true false).refs = 1 ∧
    ({ demoEntry true false with refs := 2 } : KvEntry).refs = 2 ∧ ((demoUnit draftEntry).seq 9).live = false := by
  refine ⟨by decide +kernel, by decide +kernel, by decide +kernel, by decide +kernel, by decide +kernel, by decide,
    by decide +kernel, by decide, by decide, by decide, by decide, by decide, ?_, by decide, by decide, by decide, by decide⟩
  exact Nat.le_of_eq List.length_replicate.symm

/-- A parent of two pages and a child without any; a child that is its parent's ancestor. -/
def shareUnit : KvUnit := { demoUnit (demoEntry true false) with seqs := [demoSeq, { demoSeq with num := 2, pages := 0 }] }
theorem test_hyp_kv_share : ((shareUnit.seq 2).live, (shareUnit.seq 2).tenant, (shareUnit.seq 2).parent) = (true, 1, none) ∧
    (shareUnit.ownKeys 2 true = []) ∧ 2 ∉ shareUnit.chain 5 (some 1) ∧ (shareUnit.chain 5 (some 1)).length ≤ 4 ∧
    1 ∈ shareUnit.chain 5 (some 1) ∧ shareUnit.resolve 4 1 0 = 1 ∧ (∃ e ∈ shareUnit.entries, e.valid = true ∧ e.key = demoKey 0) ∧
    (∃ key ∈ shareUnit.ownKeys 1 true, key.block < 1) := by decide +kernel

/-- KvWindows: an edge that passes block 0 of a window of 16 tokens, held at a probed page; drafts kept, dropped, touched. -/
theorem test_hyp_kv_windows : (let u : KvUnit := { demoUnit (demoEntry true false) with seqs := [{ demoSeq with window := 16 }] }
    let e : KvEntry := { demoEntry true false with page := homeIndex (demoKey 0) 4 }
    let v : KvUnit := { u with entries := [e] }
    v.lookup 4 (demoKey 0) = some e ∧ e.page ∈ probes (homeIndex e.key 4) 4 ∧ e.refs ≤ 1 ∧ e.held = true ∧
      e.provisional = false ∧ (64 ≤ 63 + 16 ∧ 63 + 16 < 100) ∧ ¬(100 ≤ 63 + 16)) ∧
    draftEntry ∈ draftUnit.entries ∧ draftEntry.valid = true ∧ (∀ x ∈ draftUnit.entries, x.page = draftEntry.page → x = draftEntry) ∧
    (draftEntry.key.seq = openWindow.seq ∧ draftEntry.window = openWindow.w) ∧ (draftUnit.seq 1).window = 0 ∧
    (∀ t ∈ openWindow.touched, t.1 ≠ draftEntry.key) ∧ (openWindow.touched.map (·.1)).Nodup ∧
    (openWindow.base + 2 ≤ 2 * 64 ∧ 0 * 64 < openWindow.base + 2) := by decide +kernel

/-- RingBlocks: a unit with 16 subscriptions, and a page of G that is not there. -/
theorem test_hyp_ring_blocks : (∃ l, (ringState (demoRing .free .free false false)).walk 0x10000 0x200000 = some l ∧
      16 ≤ ((List.replicate 16 (demoSub true (stackOf l.pa))).filter fun x => x.stack == stackOf l.pa).length) ∧
    demo.walk (demo.rootOf 0) 0x200000 = none ∧ inRanges (demo.rangesOf 0) 0x200000 256 = true ∧
    inRanges (demo.rangesOf 0) 0x900000 256 = false ∧ (∃ x ∈ (demoRing .free .filled true true).slots, x.1 ≠ .free) ∧
    demoMember.ring? 1 = none := by
  refine ⟨⟨_, rfl, ?_⟩, by decide +kernel, by decide, by decide, by decide, by decide⟩
  decide +kernel

/-- TileBytes: pieces of a tile that pass, in a scratchpad and at a page that is there. -/
theorem test_hyp_tile_pieces : (feeding true 4).viaOf (ringMember (demoRing .free .filled false false)) 0x200000 = none ∧
    (∀ y, (feeding true 4).part? 0 = some y → y.cfg.sampler = none) ∧
    (∃ l leaf, (feeding true 4).checkPiece 1 ⟨0x200000, 64, false⟩ = .pass l (some leaf) ∧ l.space = 0 ∧ leaf ≠ l.off ∧
      ∀ i < 64, ((l.plus i).space ≠ 0 ∨ (l.plus i).off < leaf ∨ leaf + 8 ≤ (l.plus i).off) ∧
        (((feeding true 4).shadowOf (l.plus i)).read 4 [] 0).2 = false) ∧
    (∃ l, (feeding true 4).checkPiece 1 ⟨0xFFFFFF8000000400, 64, true⟩ = .pass l none) ∧
    homeOk (feeding true 4) ⟨2, 0x400⟩ = true := by
  refine ⟨by decide, ?_, ⟨_, _, rfl, by decide +kernel, by decide +kernel, by decide +kernel⟩, ⟨_, rfl⟩, by decide⟩
  intro y h
  cases h
  rfl
/-- SubscriptionTiles: a tile whose page is poisoned fails with that cause, at its address. -/
theorem test_hyp_tile_fails : reachIs (({ feeding true 4 with poison := [0x40] } : State).tileReach (demoSub true 4) 0
    ((demoSub true 4).rowPieces 0x400) 0) 0 (some (0x087, 0x200000)) = true ∧
    (demoRing .free .filled false false).slots.length = 2 := by decide +kernel

/-- GatheringWords: an undeclared tag of the arrivals that publish, the words that a bent may not issue, an id of no crew. -/
theorem test_hyp_gather_traps : (∀ i ∈ [Instr.tbarP 2 1, .tbaraP 5 7 1, .tbarw 2 1, .tbarwP 7 1], Issues fewTags demo1 i) ∧
    fewTags.inBent demo1 = false ∧
    (∀ i ∈ [Instr.phase, .tbarP 1 1, .tbaraP 5 1 1, .dfkeep 5 10], Issues demoBent bent1 i) ∧ demoBent.inBent bent1 = true ∧
    bent1.runs = [] ∧ Issues demo demo1 (.crewq 5 1 0) ∧ (∀ c ∈ demo.crews, c.core = 0 → c.member = 1 → c.idWord ≠ demo.name demo1 1) := by
  exact ⟨issues_all (by decide), by decide, issues_all (by decide), by decide, by decide, issues_of (by decide), by decide⟩

/-- TagBarriers: arrivals whose count is 0, above 65,535, and not their generation's. -/
theorem test_hyp_tag_counts : (∀ n ∈ [0, 65536, 3], ((taggedBy { numbered with count := n }).tagArrivals.find? fun x => x.id == 95) =
      some { numbered with count := n } ∧ (taggedBy { numbered with count := n }).settled [] = true ∧
      (∀ u ∈ numbered.uids, (taggedBy { numbered with count := n }).trapHeld u = false)) ∧
    ({ demoTag with arrived := 1 } : TagBarrier).count = some 2 ∧ 1 < 2 ∧ (3 : Nat) ≠ 2 := by decide

/-- SpecialRegisters: every other register in a lane of a bent. -/
theorem test_hyp_mfs_bent : (∀ i ∈ [0x00, 0x01, 0x02, 0x03, 0x04, 0x05, 0x06, 0x07, 0x0B, 0x0C, 0x0D, 0x0E, 0x0F, 0x10, 0x11, 0x12,
      0x13, 0x14].map (Instr.mfs 5), Issues demoBent bent1 i) ∧ demoBent.member? bent1.member = some demoMember :=
  ⟨issues_all (by decide), by decide⟩

/-- ReplyLands: an atomic's reply for a girt slot, performed and with a value. -/
def girtAtom (m : AtomMod) : Flight := { atomFlight 0 m with dst := [.girt 50 0 3 0] }
theorem test_hyp_girt_reply : (∀ m ∈ [(⟨0, false, true, true, 2⟩ : AtomMod), ⟨0, false, false, false, 0⟩],
      ({ demoBent with input := .id 60, flights := [girtAtom m] } : State).flight? 60 = some (girtAtom m) ∧
      (girtAtom m).applied = true ∧ (girtAtom m).reply ≠ [] ∧ (girtAtom m).dst = [.girt demoFrame.fid 0 3 0]) ∧
    demoBent.frame? 50 = some demoFrame ∧ demoBent.thread? 1 = some demo1 := by decide

/-- UsageIntervals: an account with a resident member; the numbers of the members differ. -/
theorem test_hyp_usage : (demo.members.map (·.id)).Nodup ∧ demo.members.filter (fun m => m.acct == 7) ≠ [] ∧
    (∃ a, demo.acct? 7 = some a ∧ ∀ n ∈ [a.usage.cells, a.usage.issue, a.usage.mem], n < 2 ^ 64) ∧ demoMember.resident = true := by
  exact ⟨by decide, by decide, ⟨_, rfl, by decide⟩, by decide⟩

/-- ContainerChecks: a class outside the table, a digest that differs, a signature that is required, a section table with a
gap in its alignment. -/
theorem test_hyp_container_checks : headerOk contBytes = true ∧ sliceNat contBytes 6 2 = 0 ∧
    headerOk (contBytes.set 6 1) = true ∧ sliceNat (contBytes.set 6 1) 6 2 = 1 ∧
    headerOk (contHead ++ Config.sha256 (contBody.set 4 129) ++ List.replicate 8 0 ++ contBody.set 4 129) = true ∧
    bodyOk (contHead ++ List.replicate 40 0 ++ contBody.set 4 129) = false ∧ headerOk [] = false ∧
    sliceNat contBytes 16 4 % 2 = 0 := by decide +kernel

/-- TimedEvents: a core with a wake that has not been counted, and a thread that is ready. -/
theorem test_hyp_woken : (({ demo with cores := [{ Core.fresh 0 with woken := [9] }] } : State).core 0).woken ≠ [] ∧
    ({ demo with cores := [{ Core.fresh 0 with woken := [9] }] } : State).isReady demo1 = true := by decide
/-- TranslationAndPages: an invalid leaf with no frame. -/
theorem test_hyp_new_page : (let s := faulting 0x21
    let e1 := s.entryAt (s.entry1 0 0x21)
    let e2 := s.entryAt (entryFrame e1 + 8 * (0x21 / 2 ^ 13 % 8192))
    entryFrame (s.entryAt (entryFrame e2 + 8 * (0x21 % 8192))) = 0) := by decide +kernel

end Sys2Proof.Machine
end

section
/-! PROOFS. O12: NOP, YIELD, PAUSE and the control transfers (spec/06_issue.md R136 to R143). A word reads its names
in the state in which it has begun; the statement reads them in the state before. The two agree, as a begin changes
nothing of the frames and crews and keeps every thread's crew, lane and seeds. -/
namespace Sys2Proof.Machine

open Sys2Proof

/-! ## Two updates of one thread -/

/-- Two updates of a list at the same key are one, when the first keeps the key. -/
theorem updateIf_updateIf {α : Type} (l : List α) (p : α → Bool) (f g : α → α) (h : ∀ x, p (f x) = p x) :
    updateIf (updateIf l p f) p g = updateIf l p fun x => g (f x) := by
  simp only [updateIf, List.map_map]
  refine List.map_congr_left fun x _ => ?_
  cases hp : p x with
  | true => simp [hp, h]
  | false => simp [hp]

/-- Two updates of a thread are one, when the first keeps its number. -/
theorem State.modThread_modThread (s : State) (u : Nat) (f g : Thread → Thread) (h : ∀ x, (f x).uid = x.uid) :
    (s.modThread u f).modThread u g = s.modThread u fun x => g (f x) :=
  congrArg (fun ts => { s with threads := ts })
    (updateIf_updateIf s.threads (fun x => x.uid == u) f g fun x => by simp only [h])

/-! ## What a word that has begun reads -/

section
variable (s : State) (t : Thread) (i : Instr)

@[simp] theorem State.begin_clock : (s.begin t i).clock = s.clock := by
  obtain ⟨ts, ms, as, h⟩ := s.begin_eq t i
  rw [h]

/-- A name denotes the same place once a word has begun. -/
@[simp] theorem State.begin_place (x : Thread) (n : Name) : (s.begin t i).place x n = s.place x n := by
  obtain ⟨ts, ms, as, h⟩ := s.begin_eq t i
  rw [h]
  rfl

/-- An update that keeps the crew, lane and seeds of every thread keeps what a seed reads (R188). -/
theorem State.modThread_seedOf (u : Nat) (g : Thread → Thread) (f : Frame) (lane slot : Nat)
    (hc : ∀ x, (g x).crew = x.crew) (hl : ∀ x, (g x).lane = x.lane) (hs : ∀ x, (g x).seeds = x.seeds) :
    (s.modThread u g).seedOf f lane slot = s.seedOf f lane slot := by
  simp only [State.seedOf, State.modThread]
  rw [find?_updateIf _ _ _ _ fun x _ => by rw [hc, hl], Option.map_map]
  congr 2
  funext x
  dsimp only [Function.comp]
  split
  · rw [hs]
  · rfl

@[simp] theorem State.begin_seedOf (f : Frame) (lane slot : Nat) :
    (s.begin t i).seedOf f lane slot = s.seedOf f lane slot := by
  cases hw : t.wait.atWord with
  | false => rw [s.begin_of_held t i hw]
  | true =>
    rw [State.seedOf, s.begin_threads t i hw]
    exact s.modThread_seedOf t.uid _ f lane slot (fun _ => rfl) (fun _ => rfl) fun _ => rfl

/-- A girt value reads the same once a word has begun (R186). -/
@[simp] theorem State.begin_girtRead (f : Frame) (k slot age lane : Nat) :
    (s.begin t i).girtRead f k slot age lane = s.girtRead f k slot age lane := by
  simp only [State.girtRead, State.girtAged, State.begin_seedOf]

/-- A name reads the same once a word has begun. -/
@[simp] theorem State.begin_name (x : Thread) (n : Name) : (s.begin t i).name x n = s.name x n := by
  simp only [State.name, State.begin_place, State.begin_girtRead]

/-- Name 31 is a register of the window for every thread, in a lane of a bent too (R90, R141). -/
theorem State.slotOf_returnName : s.slotOf t 31 = .reg (16 * t.wb + 31) := rfl

end

/-! ## The words -/

/-- A pause length is brought into 1 to 65,535 cycles (R139). -/
theorem pauseLength_eq (n : Word) :
    pauseLength n = if n.toNat = 0 then 1 else if 65535 < n.toNat then 65535 else n.toNat := by
  unfold pauseLength
  split
  · rfl
  · show min n.toNat 65535 = _
    split
    · exact Nat.min_eq_right (by omega)
    · exact Nat.min_eq_left (by omega)

/-- A pause window that opens as its word completes is one change of its thread (R139). -/
theorem State.openPause_finish (s : State) (u : Nat) (start : DWord) (n : Nat) (hitCloses : Bool) :
    (s.openPause u start n hitCloses).finish u = s.modThread u fun x => Thread.advance { x with
      pause := some (start + BitVec.ofNat 64 n)
      hitCloses := hitCloses } :=
  s.modThread_modThread u _ _ fun _ => rfl

section
variable {s : State} {t : Thread}

theorem Issues.exec_nop (h : Issues s t .nop) : exec .nop s = .next ((s.begin t .nop).finish t.uid) :=
  h.issueWord _

theorem Issues.exec_yield (h : Issues s t .yield) : exec .yield s = .next ((s.begin t .yield).finish t.uid) :=
  h.issueWord _

theorem Issues.exec_pause {a : Name} {i : BitVec 10} (h : Issues s t (.pause a i)) :
    exec (.pause a i) s = .next (((s.begin t (.pause a i)).openPause t.uid s.clock
      (pauseLength (s.name t a + i.setWidth 32)) false).finish t.uid) := by
  rw [← s.begin_name t (.pause a i), ← s.begin_clock t (.pause a i)]
  exact h.issueWord _

theorem Issues.exec_b {p : BitVec 3} {o : BitVec 23} (h : Issues s t (.b p o)) :
    exec (.b p o) s = .next ((s.begin t (.b p o)).branch t (t.pred p) o) :=
  h.issueWord _

theorem Issues.exec_bn {p : BitVec 3} {o : BitVec 23} (h : Issues s t (.bn p o)) :
    exec (.bn p o) s = .next ((s.begin t (.bn p o)).branch t (!t.pred p) o) :=
  h.issueWord _

theorem Issues.exec_jmp {o : BitVec 23} (h : Issues s t (.jmp o)) :
    exec (.jmp o) s = .next ((s.begin t (.jmp o)).jump t.uid (targetOf t.pc o)) :=
  h.issueWord _

theorem Issues.exec_ret {a : Name} (h : Issues s t (.ret a)) :
    exec (.ret a) s = .next ((s.begin t (.ret a)).jump t.uid (s.name t a)) := by
  rw [← s.begin_name t (.ret a)]
  exact h.issueWord _

theorem Issues.exec_call {o : BitVec 23} (h : Issues s t (.call o)) :
    exec (.call o) s = .next (((s.begin t (.call o)).write t.uid (.reg (16 * t.wb + 31)) (t.pc + 1)).jump t.uid
      (targetOf t.pc o)) := by
  rw [← (s.begin t (.call o)).slotOf_returnName t]
  exact h.issueWord _

end

/-- Settles O12: each word by its own equation above; the lengths of PAUSE by `pauseLength_eq`. -/
theorem controlTransfers : Obligations.ControlTransfers := by
  unfold Obligations.ControlTransfers
  refine ⟨fun s t a i => ⟨fun h => h.exec_nop, fun h => h.exec_yield, fun h => ?_⟩, fun s t a p o => ⟨?_, ?_⟩⟩
  · rw [h.exec_pause, State.openPause_finish, pauseLength_eq]
  · rintro r hr h
    simp only [List.mem_cons, List.not_mem_nil, or_false] at hr
    obtain rfl | rfl := hr
    · exact h.exec_b
    · exact h.exec_bn
  · exact ⟨fun h => h.exec_jmp, fun h => h.exec_ret, fun h => h.exec_call⟩

end Sys2Proof.Machine
end

section
/-! PROOFS. O8, O10, O11: two-source integer words, predicate words, the window and the special registers
(spec/07_integer.md R156 to R174). Each word has its effect through `Issues.issueWord`; what it reads, it reads as
before it has begun; what remains is arithmetic on words. -/
namespace Sys2Proof.Machine

open Sys2Proof

/-! ## What a word that has begun reads of its thread's bent, member and allotment -/

section
variable (s : State) (t : Thread) (i : Instr)

@[simp] theorem State.begin_crew? (c : Nat) : (s.begin t i).crew? c = s.crew? c := by
  obtain ⟨ts, ms, as, h⟩ := s.begin_eq t i
  rw [h]
  rfl

@[simp] theorem State.begin_bentOf (x : Thread) : (s.begin t i).bentOf x = s.bentOf x := by
  obtain ⟨ts, ms, as, h⟩ := s.begin_eq t i
  rw [h]
  rfl

@[simp] theorem State.begin_inBent (x : Thread) : (s.begin t i).inBent x = s.inBent x := by
  simp only [State.inBent, State.begin_bentOf]

@[simp] theorem State.begin_nameWaits (x : Thread) (n : Name) : (s.begin t i).nameWaits x n = s.nameWaits x n := by
  simp only [State.nameWaits, State.begin_place, State.begin_girtRead]

/-- An issue that is charged changes no member but for its issue count (R476). -/
theorem State.chargeIssue_member? (m k n : Nat) : (s.chargeIssue m k).member? n =
    if n = m then (s.member? m).map fun x => { x with issue := x.issue + k } else s.member? n := by
  obtain ⟨as, h⟩ := (s.modMember m fun x => { x with issue := x.issue + k }).chargeMember_eq m
    { Usage.zero with issue := k }
  rw [State.chargeIssue, h]
  exact s.member?_modMember m n _ fun _ => rfl

/-- What does not depend on a member's issue count is the same of it once a word has begun. -/
theorem State.begin_member?_map {α : Type} (n : Nat) (f : Member → α)
    (hf : ∀ m k, f { m with issue := k } = f m) :
    ((s.begin t i).member? n).map f = (s.member? n).map f := by
  cases hw : t.wait.atWord with
  | false => rw [s.begin_of_held t i hw]
  | true =>
    simp only [State.begin, hw, if_true]
    cases (coversOf i).isNone with
    | false => rfl
    | true =>
      show ((s.chargeIssue t.member 1).member? n).map f = _
      rw [State.chargeIssue_member?]
      split
      · next h =>
        rw [h, Option.map_map]
        exact congrArg (fun g => (s.member? t.member).map g) (funext fun m => hf m _)
      · rfl

@[simp] theorem State.begin_allot (x : Thread) : (s.begin t i).allot x = s.allot x := by
  rw [State.allot, s.begin_member?_map t i x.member (fun m => 16 * m.desc.regs) fun _ _ => rfl]
  rfl

/-- A special register reads the same once a word has begun. -/
@[simp] theorem State.begin_special (x : Thread) (sel : Nat) : (s.begin t i).special x sel = s.special x sel := by
  simp only [State.special, State.iterOf, State.begin_crew?, State.begin_bentOf, State.begin_allot,
    s.begin_member?_map t i x.member (·.part) fun _ _ => rfl,
    s.begin_member?_map t i x.member (·.acct) fun _ _ => rfl,
    s.begin_member?_map t i x.member (·.index) fun _ _ => rfl,
    s.begin_member?_map t i x.member (·.version) fun _ _ => rfl]

end

/-! ## Results of the two-source words (R156 to R160) -/

/-- The high word of a signed product (R156). -/
theorem hiWord_mulWide (x y : Word) : hiWord (mulWide x y) = BitVec.ofInt 32 (x.toInt * y.toInt / 2 ^ 32) := by
  apply BitVec.eq_of_toNat_eq
  simp only [hiWord, mulWide, BitVec.toNat_setWidth, BitVec.toNat_ushiftRight, BitVec.toNat_ofInt,
    Nat.shiftRight_eq_div_pow]
  generalize x.toInt * y.toInt = z
  omega

/-- The high word of an unsigned product (R156). -/
theorem hiWord_mulWideU (x y : Word) : hiWord (mulWideU x y) = BitVec.ofNat 32 (x.toNat * y.toNat / 2 ^ 32) := by
  apply BitVec.eq_of_toNat_eq
  simp only [hiWord, mulWideU, BitVec.toNat_setWidth, BitVec.toNat_ushiftRight, BitVec.toNat_ofNat,
    Nat.shiftRight_eq_div_pow]
  generalize x.toNat * y.toNat = z
  omega

/-- The quotient that overflows is what `sdiv` gives there too (R157). -/
theorem divSigned_eq (x y : Word) : divSigned x y = if y = 0 then BitVec.allOnes 32 else x.sdiv y := by
  unfold divSigned
  split
  · rfl
  · split
    · next h => rw [h.1, h.2]; decide
    · apply BitVec.eq_of_toInt_eq
      rw [BitVec.toInt_ofInt, BitVec.toInt_sdiv]

theorem divUnsigned_eq (x y : Word) : divUnsigned x y = if y = 0 then BitVec.allOnes 32 else x / y := by
  unfold divUnsigned
  split
  · rfl
  · rw [← BitVec.toNat_udiv, BitVec.ofNat_toNat, BitVec.setWidth_eq]

/-- The remainder of the quotient that overflows is 0, as `srem` gives there too (R157). -/
theorem remSigned_eq (x y : Word) : remSigned x y = if y = 0 then x else x.srem y := by
  unfold remSigned
  split
  · rfl
  · split
    · next h => rw [h.1, h.2]; decide
    · rw [← Int.tmod_def, ← BitVec.toInt_srem, BitVec.ofInt_toInt]

theorem remUnsigned_eq (x y : Word) : remUnsigned x y = if y = 0 then x else x % y := by
  unfold remUnsigned
  split
  · rfl
  · rw [← BitVec.toNat_umod, BitVec.ofNat_toNat, BitVec.setWidth_eq]

theorem rotLeft_eq (x : Word) (n : Nat) (h : n < 32) : rotLeft x n = x.rotateLeft n := by
  rw [BitVec.rotateLeft_def, Nat.mod_eq_of_lt h]
  rfl

/-- A choice by `<` is the choice by `≤`, when it does not matter for equal values. -/
theorem ite_lt_eq_ite_le {α : Type} [LinearOrder α] {m n : α} {a b : Word} (h : m = n → a = b) :
    (if m < n then a else b) = if m ≤ n then a else b := by
  rcases lt_trichotomy m n with hlt | heq | hgt
  · rw [if_pos hlt, if_pos hlt.le]
  · rw [h heq, ite_self, ite_self]
  · rw [if_neg hgt.not_gt, if_neg hgt.not_ge]

theorem ite_slt_eq {x y a b : Word} (h : x = y → a = b) :
    (if x.slt y then a else b) = if x.toInt ≤ y.toInt then a else b := by
  simp only [BitVec.slt_iff_toInt_lt]
  exact ite_lt_eq_ite_le fun e => h (BitVec.eq_of_toInt_eq e)

theorem ite_ult_eq {x y a b : Word} (h : x = y → a = b) :
    (if x.ult y then a else b) = if x.toNat ≤ y.toNat then a else b := by
  simp only [BitVec.ult_iff_toNat_lt]
  exact ite_lt_eq_ite_le fun e => h (BitVec.eq_of_toNat_eq e)

/-- A predicate reads true when it is p0 or when its bit is set (R93). -/
theorem Thread.pred_iff (t : Thread) (k : BitVec 3) : t.pred k = true ↔ k = 0 ∨ t.preds.getLsbD k.toNat = true := by
  rw [Thread.pred, Bool.or_eq_true, beq_iff_eq]

/-- A two-source word writes what its operation gives for its sources. -/
theorem Issues.exec_binary {s : State} {t : Thread} {i : Instr} {d a b : Name} {v : Word} (h : Issues s t i)
    (f : Word → Word → Word) (hi : exec i s = binary i d a b f s) (hv : f (s.name t a) (s.name t b) = v) :
    exec i s = .next ((s.begin t i).result t d v) := by
  rw [hi, binary, h.issueWord, State.begin_name, State.begin_name, hv]

theorem Issues.exec_sel {s : State} {t : Thread} {k : BitVec 3} {d a b : Name} (h : Issues s t (.sel k d a b)) :
    exec (.sel k d a b) s = .next ((s.begin t (.sel k d a b)).result t d
      (if t.pred k then s.name t a else s.name t b)) := by
  rw [← s.begin_name t (.sel k d a b) t a, ← s.begin_name t (.sel k d a b) t b]
  exact h.issueWord _

/-- Settles O8: each word by `Issues.exec_binary`, with the arithmetic of its operation from the lemmas above. -/
theorem integerBinaryResults : Obligations.IntegerBinaryResults := by
  unfold Obligations.IntegerBinaryResults
  intro s t k d a b x y
  simp only [List.forall_mem_cons, List.not_mem_nil, false_imp_iff, implies_true, and_true]
  exact ⟨fun h => h.exec_binary (· + ·) rfl rfl,
    fun h => h.exec_binary (· - ·) rfl rfl,
    fun h => h.exec_binary (· * ·) rfl rfl,
    fun h => h.exec_binary (hiWord <| mulWide · ·) rfl (hiWord_mulWide _ _),
    fun h => h.exec_binary (hiWord <| mulWideU · ·) rfl (hiWord_mulWideU _ _),
    fun h => h.exec_binary divSigned rfl (divSigned_eq _ _),
    fun h => h.exec_binary divUnsigned rfl (divUnsigned_eq _ _),
    fun h => h.exec_binary remSigned rfl (remSigned_eq _ _),
    fun h => h.exec_binary remUnsigned rfl (remUnsigned_eq _ _),
    fun h => h.exec_binary (· &&& ·) rfl rfl,
    fun h => h.exec_binary (· ||| ·) rfl rfl,
    fun h => h.exec_binary (· ^^^ ·) rfl rfl,
    fun h => h.exec_binary (· &&& ~~~·) rfl rfl,
    fun h => h.exec_binary (· <<< shiftCount ·) rfl rfl,
    fun h => h.exec_binary (· >>> shiftCount ·) rfl rfl,
    fun h => h.exec_binary (fun x y => x.sshiftRight (shiftCount y)) rfl rfl,
    fun h => h.exec_binary (fun x y => rotLeft x (shiftCount y)) rfl (rotLeft_eq _ _ (Nat.mod_lt _ (by decide))),
    fun h => h.exec_binary (fun x y => if x.slt y then x else y) rfl (ite_slt_eq id),
    fun h => h.exec_binary (fun x y => if x.slt y then y else x) rfl (ite_slt_eq Eq.symm),
    fun h => h.exec_binary (fun x y => if x.ult y then x else y) rfl (ite_ult_eq id),
    fun h => h.exec_binary (fun x y => if x.ult y then y else x) rfl (ite_ult_eq Eq.symm),
    fun h => by simp only [h.exec_sel, Thread.pred_iff, x, y]⟩

/-! ## Predicate words (R162, R165, R167, R168, R200) -/

/-- The truth of a condition code (R162). -/
theorem intCond_iff (c : BitVec 3) (x y : Word) : intCond c x y = true ↔ condHolds c x y := by
  have hc : c ∈ [0, 1, 2, 3, 4, 5, 6, 7] := by revert c; decide
  simp only [List.mem_cons, List.not_mem_nil, or_false] at hc
  obtain rfl | rfl | rfl | rfl | rfl | rfl | rfl | rfl := hc <;>
    simp [intCond, condHolds, BitVec.slt, BitVec.ult]

section
variable {s : State} {t : Thread} {c p a b : BitVec 3} {x y d : Name}

theorem Issues.exec_cmp (h : Issues s t (.cmp c p x y)) : exec (.cmp c p x y) s =
    .next ((s.begin t (.cmp c p x y)).resultPred t p (intCond c (s.name t x) (s.name t y))) := by
  rw [← s.begin_name t (.cmp c p x y) t x, ← s.begin_name t (.cmp c p x y) t y]
  exact h.issueWord _

theorem Issues.exec_cmpi {i : BitVec 10} (h : Issues s t (.cmpi c p x i)) : exec (.cmpi c p x i) s =
    .next ((s.begin t (.cmpi c p x i)).resultPred t p (intCond c (s.name t x) (i.signExtend 32))) := by
  rw [← s.begin_name t (.cmpi c p x i)]
  exact h.issueWord _

theorem Issues.exec_gpres (h : Issues s t (.gpres p x)) : exec (.gpres p x) s = .next (if s.inBent t then
    (s.begin t (.gpres p x)).resultPred t p (!s.nameWaits t x)
    else (s.begin t (.gpres p x)).trap t.uid 0x106 0) := by
  rw [← s.begin_inBent t (.gpres p x), ← s.begin_nameWaits t (.gpres p x)]
  exact h.issueWord _

theorem Issues.exec_pget (h : Issues s t (.pget d)) : exec (.pget d) s =
    .next ((s.begin t (.pget d)).result t d ((t.preds ||| 1).setWidth 32)) :=
  h.issueWord _

theorem Issues.exec_pset (h : Issues s t (.pset x)) : exec (.pset x) s =
    .next ((s.begin t (.pset x)).modThread t.uid fun z =>
      Thread.advance { z with preds := (s.name t x).setWidth 8 ||| 1 }) := by
  rw [← s.begin_name t (.pset x), ← State.modThread_modThread]
  · exact h.issueWord _
  · exact fun _ => rfl

end

/-- The bits of a value of at least one bit, with bit 0 set. -/
theorem getLsbD_or_one {w : Nat} (x : BitVec w) (j : Nat) (h : 0 < w) :
    (x ||| 1).getLsbD j = (decide (j = 0) || x.getLsbD j) := by
  have h1 : (1#w).getLsbD j = decide (j = 0) := by rw [BitVec.getLsbD_one, decide_eq_true h, Bool.true_and]
  rw [BitVec.getLsbD_or, Bool.or_comm]
  exact congrArg (· || x.getLsbD j) h1

/-- No bit lies above the width. -/
theorem lt_and_getLsbD {w : Nat} (x : BitVec w) (j : Nat) : (decide (j < w) && x.getLsbD j) = x.getLsbD j := by
  rw [Bool.and_eq_right_iff_imp, decide_eq_true_eq]
  exact BitVec.lt_of_getLsbD

/-- Settles O10: each word by its own equation above; the truth of a comparison by `intCond_iff`, the bits of PGET and
PSET by `getLsbD_or_one`. -/
theorem predicateWords : Obligations.PredicateWords := by
  unfold Obligations.PredicateWords
  refine ⟨⟨fun s t c p a b h => ⟨_, intCond_iff c _ _, h.exec_cmp⟩,
      fun s t c p a i h => ⟨_, intCond_iff c _ _, h.exec_cmpi⟩, fun s t p a b => ?_,
      fun s t p a h => h.exec_gpres⟩,
    fun s t d h => ⟨_, h.exec_pget, fun j hj => ?_⟩, fun s t a h => ⟨_, h.exec_pset, fun j hj => ?_⟩⟩
  · simp only [List.forall_mem_cons, List.not_mem_nil, false_imp_iff, implies_true, and_true]
    exact ⟨fun h => h.issueWord _, fun h => h.issueWord _, fun h => h.issueWord _, fun h => h.issueWord _⟩
  · rw [BitVec.getLsbD_setWidth, decide_eq_true hj, Bool.true_and, getLsbD_or_one _ j (by decide), lt_and_getLsbD]
  · rw [getLsbD_or_one _ j (by decide), BitVec.getLsbD_setWidth, decide_eq_true hj, Bool.true_and]

/-! ## The window base and the special registers (R169 to R174) -/

/-- The window description, with its fields at their places (R171). -/
theorem windowWord_eq (alloc wb : Nat) : windowWord alloc wb =
    BitVec.ofNat 32 (alloc / 16 % 64 * 65536 + maxWindow alloc % 32 * 256 + wb % 32) := by
  generalize hm : maxWindow alloc = m
  have low : m % 32 * 256 + wb % 32 = m % 32 * 256 ||| wb % 32 := by
    rw [Nat.mul_comm]
    exact Nat.two_pow_add_eq_or_of_lt (i := 8) (by omega) _
  have high : alloc / 16 % 64 * 65536 + (m % 32 * 256 + wb % 32) =
      alloc / 16 % 64 * 65536 ||| (m % 32 * 256 + wb % 32) := by
    rw [Nat.mul_comm (alloc / 16 % 64)]
    exact Nat.two_pow_add_eq_or_of_lt (i := 16) (by omega) _
  rw [Nat.add_assoc, high, low, BitVec.ofNat_or, BitVec.ofNat_or, windowWord, hm, BitVec.or_assoc]
  simp only [field, Nat.reducePow, Nat.mul_one]

/-- The iteration that a lane of bent `k` serves: that of the last of its runs that is a stage run (R173, R182). -/
theorem State.iterOf_of_bent {s : State} {t : Thread} {f : Frame} {k : Nat} (h : s.bentOf t = some (f, k)) :
    s.iterOf t = match (t.runs.filter fun r => r.stageKind).getLast? with
      | none => 0xFFFFFFFF
      | some r => BitVec.ofInt 32 ((k : Int) - r.stage) := by
  rw [State.iterOf, h, stageOf, List.getLast?_filter]
  cases t.runs.reverse.find? fun r => r.stageKind with
  | none => rfl
  | some r => rfl

theorem State.bentOf_of_crew {s : State} {t : Thread} {c : Crew} {f : Frame} {k : Nat} (hc : s.crew? t.crew = some c)
    (hb : c.bent = some (f.fid, k)) (hf : s.frame? f.fid = some f) : s.bentOf t = some (f, k) := by
  simp only [State.bentOf, hc, hb, hf, Option.map_some]

theorem State.bentOf_of_no_bent {s : State} {t : Thread} {c : Crew} (hc : s.crew? t.crew = some c)
    (hb : c.bent = none) : s.bentOf t = none := by
  simp only [State.bentOf, hc, hb]

/-- The M-cores are the first 192 (spec/00_scope.md). -/
theorem isM_iff (core : Nat) : isM core = true ↔ core < 192 := decide_eq_true_iff

/-- The special registers that tell of a thread's crew (R173). -/
theorem State.special_of_crew {s : State} {t : Thread} {c : Crew} (h : s.crew? t.crew = some c) :
    s.special t 0x05 = c.idWord ∧ s.special t 0x07 = BitVec.ofNat 32 c.width := by
  simp only [State.special, h, Option.map_some, Option.getD_some, and_self]

/-- The special registers that tell of a thread's member (R173). -/
theorem State.special_of_member {s : State} {t : Thread} {m : Member} (h : s.member? t.member = some m) :
    s.special t 0x0C = BitVec.ofNat 32 m.part ∧ s.special t 0x0D = BitVec.ofNat 32 m.acct ∧
      s.special t 0x0F = BitVec.ofNat 32 m.index ∧ s.special t 0x10 = BitVec.ofNat 32 m.version ∧
      s.special t 0x13 = BitVec.ofNat 32 (16 * m.desc.regs) := by
  simp only [State.special, State.allot, h, Option.map_some, Option.getD_some, and_self]

/-- What `%bent`, `%iter` and `%trip` read outside a bent (R173). -/
theorem State.special_of_no_bent {s : State} {t : Thread} (h : s.bentOf t = none) :
    s.special t 0x08 = 0xFFFFFFFF ∧ s.special t 0x09 = 0xFFFFFFFF ∧ s.special t 0x0A = 0 := by
  simp only [State.special, State.iterOf, h, Option.map_none, Option.getD_none, and_self]

/-- What `%bent` and `%trip` read in a bent (R173). -/
theorem State.special_of_bent {s : State} {t : Thread} {f : Frame} {k : Nat} (h : s.bentOf t = some (f, k)) :
    s.special t 0x08 = BitVec.ofNat 32 k ∧ s.special t 0x0A = BitVec.ofNat 32 f.n := by
  simp only [State.special, h, Option.map_some, Option.getD_some, and_self]

section
variable {s : State} {t : Thread} {a d : Name} {sel : BitVec 7}

theorem Issues.exec_wbase (h : Issues s t (.wbase a)) : exec (.wbase a) s = .next (
    if s.inBent t then (s.begin t (.wbase a)).trap t.uid 0x125 0
    else if maxWindow (s.allot t) < (s.name t a).toNat then
      (s.begin t (.wbase a)).trap t.uid 0x124 ((s.name t a).setWidth 64)
    else (s.begin t (.wbase a)).modThread t.uid fun x => Thread.advance { x with wb := (s.name t a).toNat }) := by
  rw [← s.begin_inBent t (.wbase a), ← s.begin_allot t (.wbase a), ← s.begin_name t (.wbase a),
    ← State.modThread_modThread]
  · exact h.issueWord _
  · exact fun _ => rfl

theorem Issues.exec_wbaseq (h : Issues s t (.wbaseq d)) : exec (.wbaseq d) s =
    .next ((s.begin t (.wbaseq d)).result t d (windowWord (s.allot t) t.wb)) := by
  rw [← s.begin_allot t (.wbaseq d)]
  exact h.issueWord _

theorem Issues.exec_mfs_clock (h : Issues s t (.mfs d 0x0B)) : exec (.mfs d 0x0B) s =
    .next ((s.begin t (.mfs d 0x0B)).resultPair t d s.clock) := by
  rw [← s.begin_clock t (.mfs d 0x0B)]
  exact h.issueWord _

theorem Issues.exec_mfs_job (h : Issues s t (.mfs d 0x0E)) : exec (.mfs d 0x0E) s =
    .next ((s.begin t (.mfs d 0x0E)).resultPair t d (((s.member? t.member).map (·.job)).getD 0)) := by
  rw [← s.begin_member?_map t (.mfs d 0x0E) t.member (·.job) fun _ _ => rfl]
  exact h.issueWord _

/-- MFS of a 32-bit special register writes what it holds (R172, R173). -/
theorem Issues.exec_mfs {v : Word} (h : Issues s t (.mfs d sel)) (hs : sel ≠ 0x0B ∧ sel ≠ 0x0E)
    (hv : s.special t sel.toNat = v) : exec (.mfs d sel) s = .next ((s.begin t (.mfs d sel)).result t d v) := by
  rw [← hv, ← s.begin_special t (.mfs d sel)]
  refine (h.issueWord _).trans ?_
  rw [if_neg hs.1, if_neg hs.2]

theorem Issues.exec_mts_sat (h : Issues s t (.mts 0x11 a)) : exec (.mts 0x11 a) s =
    .next ((s.begin t (.mts 0x11 a)).modThread t.uid fun x => Thread.advance { x with
      sat := (s.name t a).getLsbD 0 }) := by
  rw [← s.begin_name t (.mts 0x11 a), ← State.modThread_modThread]
  · exact h.issueWord _
  · exact fun _ => rfl

theorem Issues.exec_mts_mark (h : Issues s t (.mts 0x14 a)) : exec (.mts 0x14 a) s =
    .next ((s.begin t (.mts 0x14 a)).modThread t.uid fun x => Thread.advance { x with mark := s.name t a }) := by
  rw [← s.begin_name t (.mts 0x14 a), ← State.modThread_modThread]
  · exact h.issueWord _
  · exact fun _ => rfl

end

/-- Settles O11: each word by its own equation above; what MFS writes by the lemmas about `State.special`. -/
theorem windowAndSpecialRegisters : Obligations.WindowAndSpecialRegisters := by
  unfold Obligations.WindowAndSpecialRegisters
  refine ⟨⟨fun s t a h => h.exec_wbase, fun s t d h => ?_⟩,
    fun s t m c d hm hc => ⟨fun h => h.exec_mfs_clock, fun h => ?_, ?_, ?_⟩, fun s t c f k d hc hb hf => ?_,
    fun s t b => ⟨fun h => h.exec_mts_sat, fun h => h.exec_mts_mark⟩⟩
  · rw [h.exec_wbaseq, windowWord_eq]
    rfl
  · rw [h.exec_mfs_job, hm]
    rfl
  · simp only [List.forall_mem_cons, List.not_mem_nil, false_imp_iff, implies_true, and_true]
    have hv (hb : c.bent = none) := State.special_of_no_bent (State.bentOf_of_no_bent hc hb)
    refine ⟨fun hb h => ?_, fun hb h => ?_, fun hb h => ?_⟩ <;> obtain ⟨hk, hiter, hn⟩ := hv hb
    · exact h.exec_mfs (by decide) hk
    · exact h.exec_mfs (by decide) hiter
    · exact h.exec_mfs (by decide) hn
  · simp only [List.forall_mem_cons, List.not_mem_nil, false_imp_iff, implies_true, and_true, ← isM_iff]
    obtain ⟨hid, hwidth⟩ := State.special_of_crew hc
    obtain ⟨hpart, hacct, hindex, hversion, hregs⟩ := State.special_of_member hm
    exact ⟨fun h => h.exec_mfs (by decide) rfl, fun h => h.exec_mfs (by decide) rfl,
      fun h => h.exec_mfs (by decide) rfl, fun h => h.exec_mfs (by decide) rfl,
      fun h => h.exec_mfs (by decide) rfl, fun h => h.exec_mfs (by decide) hid,
      fun h => h.exec_mfs (by decide) rfl, fun h => h.exec_mfs (by decide) hwidth,
      fun h => h.exec_mfs (by decide) hpart, fun h => h.exec_mfs (by decide) hacct,
      fun h => h.exec_mfs (by decide) hindex, fun h => h.exec_mfs (by decide) hversion,
      fun h => h.exec_mfs (by decide) rfl, fun h => h.exec_mfs (by decide) rfl,
      fun h => h.exec_mfs (by decide) hregs, fun h => h.exec_mfs (by decide) rfl⟩
  · have hbent := State.bentOf_of_crew hc hb hf
    obtain ⟨hk, hn⟩ := State.special_of_bent hbent
    simp only [List.forall_mem_cons, List.not_mem_nil, false_imp_iff, implies_true, and_true]
    exact ⟨fun h => h.exec_mfs (by decide) hk, fun h => h.exec_mfs (by decide) hn,
      fun h => h.exec_mfs (by decide) (State.iterOf_of_bent hbent)⟩

end Sys2Proof.Machine
end

section
/-! PROOFS. O37: APTEST and APCVT (spec/09_memory_access.md R226, R227). APTEST checks its address in the state in which
it has begun. The word's issue is charged to its member by then, which may also own what the address reaches: where an
address points is the same but for the issue counts, on which no field of the result depends. -/
namespace Sys2Proof.Machine

open Sys2Proof

/-! ## Where an address points, but for what issues have charged -/

/-- A member but for its issue count (R476). -/
def Member.uncharged (m : Member) : Member := { m with issue := 0 }

@[simp] theorem Member.uncharged_core (m : Member) : m.uncharged.core = m.core := rfl
@[simp] theorem Member.uncharged_isReleased (m : Member) : m.uncharged.isReleased = m.isReleased := rfl

/-- A state but for its members' issue counts. -/
def State.uncharged (s : State) : State := { s with members := s.members.map Member.uncharged }

/-- A target but for its owner's issue count. -/
def Target.uncharged : Target → Target
  | .shared va => .shared va
  | .scratch owner off => .scratch owner.uncharged off

/-- The least element of a list's image is the image of the list's least element. -/
theorem minBy_map {α β : Type} (l : List α) (f : α → β) (key : β → Nat) :
    minBy (l.map f) key = (minBy l fun x => key (f x)).map f := by
  induction l with
  | nil => rfl
  | cons x rest ih =>
    rw [List.map_cons, minBy, minBy, ih]
    cases minBy rest fun x => key (f x) with
    | none => rfl
    | some y =>
      simp only [Option.map_some]
      split <;> rfl

/-- Which member is a peer does not depend on issue counts (R204). -/
theorem State.peer_uncharged (s : State) (m : Member) (c : Nat) :
    s.uncharged.peer m.uncharged c = (s.peer m c).map Member.uncharged := by
  simp only [State.peer, State.uncharged, List.filter_map, minBy_map, Member.uncharged_core,
    Member.uncharged_isReleased]
  split
  · rfl
  · split <;> rfl

/-- Where an address points does not depend on issue counts (R202). -/
theorem State.target_uncharged (s : State) (m : Member) (a : DWord) (n : Nat) :
    s.uncharged.target m.uncharged a n = (s.target m a n).map Target.uncharged := by
  simp only [State.target, State.peer_uncharged]
  cases s.peer m ((a - clusterBase).toNat / 2 ^ 24) with
  | none =>
    simp only [apply_ite (Except.map Target.uncharged)]
    rfl
  | some p =>
    simp only [apply_ite (Except.map Target.uncharged)]
    rfl

/-- The classification of an address does not depend on issue counts (R226). -/
theorem State.classify_uncharged (s : State) (m : Member) (a : DWord) :
    s.uncharged.classify m.uncharged a = s.classify m a := by
  simp only [State.classify, State.target_uncharged]
  cases s.target m a 1 with
  | error c => rfl
  | ok x => cases x <;> rfl

/-! ## What a word that has begun classifies -/

section
variable (s : State) (t : Thread) (i : Instr)

/-- A pair reads the same once a word has begun. -/
@[simp] theorem State.begin_pair (x : Thread) (n : Name) : (s.begin t i).pair x n = s.pair x n := by
  simp only [State.pair, State.begin_name]

/-- An issue that is charged changes no member but for its issue count. -/
theorem State.chargeIssue_members_uncharged (m k : Nat) :
    (s.chargeIssue m k).members.map Member.uncharged = s.members.map Member.uncharged := by
  obtain ⟨as, h⟩ := (s.modMember m fun x => { x with issue := x.issue + k }).chargeMember_eq m
    { Usage.zero with issue := k }
  rw [State.chargeIssue, h]
  simp only [State.modMember, updateIf, List.map_map]
  refine List.map_congr_left fun x _ => ?_
  rw [Function.comp_apply]
  split <;> rfl

/-- A word that begins changes no member but for its issue count. -/
theorem State.begin_members_uncharged :
    (s.begin t i).members.map Member.uncharged = s.members.map Member.uncharged := by
  cases hw : t.wait.atWord with
  | false => rw [s.begin_of_held t i hw]
  | true =>
    simp only [State.begin, hw, if_true]
    cases (coversOf i).isNone with
    | false => rfl
    | true => exact s.chargeIssue_members_uncharged t.member 1

/-- An address is classified the same for a member once a word has begun. -/
@[simp] theorem State.begin_classify (m : Member) (a : DWord) : (s.begin t i).classify m a = s.classify m a := by
  rw [← State.classify_uncharged, ← s.classify_uncharged]
  have hs : (s.begin t i).uncharged = { s.begin t i with members := s.members.map Member.uncharged } := by
    rw [State.uncharged, State.begin_members_uncharged]
  rw [hs]
  rfl

/-- An address is classified the same for the member of a number once a word has begun. -/
theorem State.begin_member?_classify (n : Nat) (a : DWord) :
    ((s.begin t i).member? n).map (fun m => (s.begin t i).classify m a) =
      (s.member? n).map fun m => s.classify m a := by
  simp only [State.begin_classify]
  refine s.begin_member?_map t i n (fun m => s.classify m a) fun m k => ?_
  rw [← State.classify_uncharged, ← s.classify_uncharged m]
  rfl

end

/-! ## The spaces (R202) -/

theorem sub_localBase_lt_iff (x : DWord) :
    (x - localBase).toNat < 2 ^ 24 ↔ 0xFFFFFF8000000000 ≤ x.toNat ∧ x.toNat < 0xFFFFFF8001000000 := by
  simp only [localBase, BitVec.toNat_sub, BitVec.reduceToNat]
  have := x.isLt
  omega

theorem sub_clusterBase_lt_iff (x : DWord) :
    (x - clusterBase).toNat < 2 ^ 26 ↔ 0xFFFFFF8100000000 ≤ x.toNat ∧ x.toNat < 0xFFFFFF8104000000 := by
  simp only [clusterBase, BitVec.toNat_sub, BitVec.reduceToNat]
  have := x.isLt
  omega

theorem toNat_sub_clusterBase {x : DWord} (h : 0xFFFFFF8100000000 ≤ x.toNat) :
    (x - clusterBase).toNat = x.toNat - 0xFFFFFF8100000000 :=
  BitVec.toNat_sub_of_le (BitVec.le_def.mpr h)

/-- The space of an address, with the apertures by their first and last addresses. -/
theorem spaceCode_eq (x : DWord) : spaceCode x =
    if x.toNat < 2 ^ 51 then 3
    else if 0xFFFFFF8000000000 ≤ x.toNat ∧ x.toNat < 0xFFFFFF8001000000 then 1
    else if 0xFFFFFF8100000000 ≤ x.toNat ∧ x.toNat < 0xFFFFFF8104000000 then 2 else 0 := by
  simp only [spaceCode, sub_localBase_lt_iff, sub_clusterBase_lt_iff]
  rfl

theorem spaceCode_eq_two_iff (x : DWord) :
    spaceCode x = 2 ↔ 0xFFFFFF8100000000 ≤ x.toNat ∧ x.toNat < 0xFFFFFF8104000000 := by
  rw [spaceCode_eq]
  grind

theorem spaceCode_eq_one_iff (x : DWord) :
    spaceCode x = 1 ↔ 0xFFFFFF8000000000 ≤ x.toNat ∧ x.toNat < 0xFFFFFF8001000000 := by
  rw [spaceCode_eq]
  grind

/-! ## The classification -/

/-- A field above another is added to it. -/
theorem ofNat_mul_two_pow_or {w : Nat} (a : Nat) {b i : Nat} (h : b < 2 ^ i) :
    BitVec.ofNat w (a * 2 ^ i) ||| BitVec.ofNat w b = BitVec.ofNat w (a * 2 ^ i + b) := by
  rw [← BitVec.ofNat_or, Nat.mul_comm, Nat.two_pow_add_eq_or_of_lt h]

/-- The fields of a classification at their places (R226). -/
theorem classifyFields_eq {cpos mapped inb space : Nat} (hc : cpos < 2 ^ 8) (hm : mapped < 2) (hi : inb < 2)
    (hs : space < 2 ^ 4) : field cpos 16 8 ||| field mapped 9 1 ||| field inb 8 1 ||| field space 0 4 =
      BitVec.ofNat 32 (space + (inb * 2 ^ 8 + mapped * 2 ^ 9) + cpos * 2 ^ 16) := by
  simp only [field, Nat.pow_one, Nat.mod_eq_of_lt, hc, hm, hi, hs, Nat.pow_zero, Nat.mul_one, BitVec.or_assoc]
  rw [ofNat_mul_two_pow_or inb (by omega), ofNat_mul_two_pow_or mapped (by omega),
    ofNat_mul_two_pow_or cpos (by omega)]
  congr 1
  omega

/-- `inb` and `mapped` of a classification at their places (R226). -/
def reachBits : Except Nat Target → Nat
  | .error _ => 0
  | .ok (.shared _) => 2 ^ 8
  | .ok (.scratch o off) => 2 ^ 8 + if (o.regionAt off).isSome then 2 ^ 9 else 0

/-- The classification of an address: its space, what reaches it, and its place in the cluster (R226). -/
theorem State.classify_eq (s : State) (m : Member) (x : DWord) : s.classify m x =
    BitVec.ofNat 32 (spaceCode x + reachBits (s.target m x 1) +
      if spaceCode x = 2 then (x.toNat - 0xFFFFFF8100000000) / 2 ^ 24 * 2 ^ 16 else 0) := by
  have hspace : spaceCode x < 2 ^ 4 := by
    rw [spaceCode_eq]
    split_ifs <;> decide
  have hcpos : (if spaceCode x = 2 then (x - clusterBase).toNat / 2 ^ 24 else 0) * 2 ^ 16 =
      if spaceCode x = 2 then (x.toNat - 0xFFFFFF8100000000) / 2 ^ 24 * 2 ^ 16 else 0 := by
    split
    · next h => rw [toNat_sub_clusterBase ((spaceCode_eq_two_iff x).mp h).1]
    · rfl
  have hlt : (if spaceCode x = 2 then (x - clusterBase).toNat / 2 ^ 24 else 0) < 2 ^ 8 := by
    split
    · next h =>
      have := (sub_clusterBase_lt_iff x).mpr ((spaceCode_eq_two_iff x).mp h)
      omega
    · decide
  have hbit (b : Bool) : (if b = true then 1 else 0) < 2 := by cases b <;> decide
  simp only [State.classify]
  rw [classifyFields_eq hlt (hbit _) (hbit _) hspace, hcpos]
  refine congrArg (fun n => BitVec.ofNat 32 (spaceCode x + n + _)) ?_
  cases s.target m x 1 with
  | error c => simp [reachBits]
  | ok y =>
    cases y with
    | shared va => simp [reachBits]
    | scratch o off => simp [reachBits, ite_mul]

/-! ## The words -/

section
variable {s : State} {t : Thread} {d a : Name}

theorem Issues.exec_aptest {m : Member} (h : Issues s t (.aptest d a)) (hm : s.member? t.member = some m) :
    exec (.aptest d a) s = .next ((s.begin t (.aptest d a)).result t d (s.classify m (s.pair t a))) := by
  have hc := s.begin_member?_classify t (.aptest d a) t.member (s.pair t a)
  rw [hm, Option.map_some] at hc
  refine (h.issueWord _).trans ?_
  rw [State.begin_pair, hc, Option.getD_some]

theorem Issues.exec_apcvtOff (h : Issues s t (.apcvtOff d a)) : exec (.apcvtOff d a) s =
    .next ((s.begin t (.apcvtOff d a)).resultPair t d (addrOffset (s.pair t a))) := by
  rw [← s.begin_pair t (.apcvtOff d a)]
  exact h.issueWord _

theorem Issues.exec_apcvtLoc (h : Issues s t (.apcvtLoc d a)) : exec (.apcvtLoc d a) s =
    .next ((s.begin t (.apcvtLoc d a)).resultPair t d (addrLocal (s.pair t a))) := by
  rw [← s.begin_pair t (.apcvtLoc d a)]
  exact h.issueWord _

theorem Issues.exec_apcvtClu (h : Issues s t (.apcvtClu d a)) : exec (.apcvtClu d a) s =
    .next ((s.begin t (.apcvtClu d a)).resultPair t d (addrCluster t.core (s.pair t a))) := by
  rw [← s.begin_pair t (.apcvtClu d a)]
  exact h.issueWord _

end

/-- The offset of an address, with the apertures by their first and last addresses (R227). -/
theorem addrOffset_eq (x : DWord) : addrOffset x =
    if x.toNat < 2 ^ 51 then x
    else if 0xFFFFFF8000000000 ≤ x.toNat ∧ x.toNat < 0xFFFFFF8001000000 then x - localBase
    else if 0xFFFFFF8100000000 ≤ x.toNat ∧ x.toNat < 0xFFFFFF8104000000 then x - clusterBase
    else BitVec.allOnes 64 := by
  rw [addrOffset, spaceCode_eq]
  split_ifs <;> rfl

/-- Settles O37: each word by its own equation above; the classification by `State.classify_eq`, the spaces by
`spaceCode_eq`. -/
theorem addressWords : Obligations.AddressWords := by
  unfold Obligations.AddressWords
  intro s t m d a hm x loc clu
  simp only [loc, clu, decide_eq_true_eq]
  refine ⟨fun h => ?_, fun h => ?_, fun h => h.exec_apcvtLoc, fun h => ?_⟩
  · rw [h.exec_aptest hm, State.classify_eq]
    simp only [spaceCode_eq_two_iff]
    rw [spaceCode_eq]
    rfl
  · rw [h.exec_apcvtOff, addrOffset_eq]
    rfl
  · rw [h.exec_apcvtClu, addrCluster]
    simp only [spaceCode_eq_one_iff, isM_iff]
    rfl

end Sys2Proof.Machine
end

section
/-! PROOFS. O22, O23: TRAP, BKPT, RETT and the trap registers (spec/20_interruptions.md R420 to R423, R443 to R448). The
words read what they need as before they have begun. What is left is the packing of `xstat`, `xcause` and `xhand`: a
field of a word of fields at disjoint places reads what was put there. -/
namespace Sys2Proof.Machine

open Sys2Proof

/-! ## Fields of a word -/

/-- The bits of a field at its place, and zeros around it. -/
theorem field_getLsbD (x sh w j : Nat) : (field x sh w).getLsbD j =
    (decide (j < 32) && (decide (sh ≤ j) && (decide (j - sh < w) && x.testBit (j - sh)))) := by
  rw [field, BitVec.getLsbD_ofNat, Nat.testBit_mul_two_pow, Nat.testBit_mod_two_pow]

/-- A field of one bit reads its flag. -/
theorem field_getLsbD_flag (b : Bool) (j : Nat) (h : j < 32) :
    (field (if b then 1 else 0) j 1).getLsbD j = b := by
  rw [field_getLsbD, decide_eq_true h, Nat.sub_self]
  cases b <;> simp

theorem field_getLsbD_of_disjoint (x sh w j : Nat) (h : j < sh ∨ sh + w ≤ j) :
    (field x sh w).getLsbD j = false := by
  rw [field_getLsbD, ← Bool.not_eq_true]
  simp only [Bool.and_eq_true, decide_eq_true_eq]
  omega

/-- A field reads back what was put there, as far as its width goes. -/
theorem field_extractLsb'_same (x sh w : Nat) (h : sh + w ≤ 32) :
    (field x sh w).extractLsb' sh w = BitVec.ofNat w x := by
  refine BitVec.eq_of_getLsbD_eq fun j hj => ?_
  have hword : sh + j < 32 := by omega
  rw [BitVec.getLsbD_extractLsb', field_getLsbD, BitVec.getLsbD_ofNat, Nat.add_sub_cancel_left]
  simp [hj, hword]

theorem field_extractLsb'_of_disjoint (x sh w a n : Nat) (h : a + n ≤ sh ∨ sh + w ≤ a) :
    (field x sh w).extractLsb' a n = 0#n := by
  refine BitVec.eq_of_getLsbD_eq fun j hj => ?_
  rw [BitVec.getLsbD_extractLsb', field_getLsbD_of_disjoint _ _ _ _ (by omega), Bool.and_false, BitVec.getLsbD_zero]

theorem field_zero (sh w : Nat) : field 0 sh w = 0#32 := by
  rw [field, Nat.zero_mod, Nat.zero_mul]

/-- Bits of a word are all zero when the number at their place is. -/
theorem extractLsb'_beq_zero {w : Nat} (x : BitVec w) (a n : Nat) :
    (x.extractLsb' a n == 0) = decide (x.toNat / 2 ^ a % 2 ^ n = 0) := by
  rw [Bool.eq_iff_iff, beq_iff_eq, decide_eq_true_eq, ← BitVec.toNat_inj, BitVec.extractLsb'_toNat,
    Nat.shiftRight_eq_div_pow]
  rfl

/-! ## The guard runs that `xstat` records (R421) -/

/-- What `xstat` records of a run: 6 bits of its count, and 3 of its stage if it is of the stage kind. -/
def Run.recorded (r : Run) : Run := ⟨r.stageKind, (if r.stageKind then r.stage else 0) % 2 ^ 3, r.left % 2 ^ 6⟩

/-- What the fields of a closed run hold. -/
def Run.closed : Run := ⟨false, 0, 0⟩

/-- A guard run as it is open in a thread: 1 to 32 words left, and a stage below 8 only with the stage kind. -/
def Run.Fits (r : Run) : Prop := 1 ≤ r.left ∧ r.left ≤ 32 ∧ r.stage < 8 ∧ (r.stageKind = false → r.stage = 0)

/-- A run that fits is recorded whole. -/
theorem Run.Fits.recorded_eq {r : Run} (h : r.Fits) : r.recorded = r := by
  obtain ⟨-, hleft, hstage, hkind⟩ := h
  have hl : r.left % 2 ^ 6 = r.left := Nat.mod_eq_of_lt (by omega)
  have hs : (if r.stageKind then r.stage else 0) % 2 ^ 3 = r.stage := by
    split
    · exact Nat.mod_eq_of_lt hstage
    · next hk => exact (hkind (eq_false_of_ne_true hk)).symm
  rw [recorded, hl, hs]

/-- In a bent the fields of a run that fits are valid. -/
theorem Run.Fits.fieldsOk {r : Run} (h : r.Fits) : runFieldsOk true r.stageKind r.left r.stage true = true := by
  obtain ⟨hpos, hleft, -, hkind⟩ := h
  cases hk : r.stageKind with
  | true => simp [runFieldsOk, hpos, hleft]
  | false => simp [runFieldsOk, hpos, hleft, hkind hk]

/-- `xstat` of an outer and an inner run, each open or closed. -/
def xstatWord (outerOpen : Bool) (o : Run) (innerOpen : Bool) (i : Run) : Word :=
  field (if outerOpen then 1 else 0) 31 1 ||| field (if o.stageKind then 1 else 0) 30 1 ||| field o.left 24 6 |||
    field (if innerOpen then 1 else 0) 23 1 ||| field (if i.stageKind then 1 else 0) 22 1 ||| field i.left 16 6 |||
    field (if o.stageKind then o.stage else 0) 13 3 ||| field (if i.stageKind then i.stage else 0) 10 3

theorem runsWord_one (o : Run) : runsWord [o] = xstatWord true o false Run.closed := by
  simp only [runsWord, xstatWord, Run.closed, Bool.false_eq_true, if_false, if_true, field_zero, BitVec.or_zero]

theorem runsWord_two (o i : Run) : runsWord [o, i] = xstatWord true o true i := rfl

section
variable (outerOpen innerOpen : Bool) (o i : Run)

/-- The fields of the outer run, those of the inner one, and the reserved bits. -/
theorem xstatWord_fields :
    ((xstatWord outerOpen o innerOpen i).getLsbD 31 = outerOpen ∧
      (xstatWord outerOpen o innerOpen i).getLsbD 30 = o.recorded.stageKind ∧
      ((xstatWord outerOpen o innerOpen i).extractLsb' 24 6).toNat = o.recorded.left ∧
      ((xstatWord outerOpen o innerOpen i).extractLsb' 13 3).toNat = o.recorded.stage) ∧
    ((xstatWord outerOpen o innerOpen i).getLsbD 23 = innerOpen ∧
      (xstatWord outerOpen o innerOpen i).getLsbD 22 = i.recorded.stageKind ∧
      ((xstatWord outerOpen o innerOpen i).extractLsb' 16 6).toNat = i.recorded.left ∧
      ((xstatWord outerOpen o innerOpen i).extractLsb' 10 3).toNat = i.recorded.stage) ∧
    (xstatWord outerOpen o innerOpen i).extractLsb' 0 10 = 0#10 := by
  simp (disch := omega) only [xstatWord, BitVec.getLsbD_or, BitVec.extractLsb'_or, field_getLsbD_flag,
    field_getLsbD_of_disjoint, field_extractLsb'_same, field_extractLsb'_of_disjoint, Bool.or_false, Bool.false_or,
    BitVec.or_zero, BitVec.zero_or, BitVec.toNat_ofNat, Run.recorded, and_self]

/-- The runs that reopen are those that were open, as they are recorded. -/
theorem wordRuns_xstatWord : wordRuns (xstatWord outerOpen o innerOpen i) =
    if outerOpen then (if innerOpen then [o.recorded, i.recorded] else [o.recorded]) else [] := by
  obtain ⟨⟨hov, hok, hoc, hos⟩, ⟨hiv, hik, hic, his⟩, -⟩ := xstatWord_fields outerOpen innerOpen o i
  simp only [wordRuns, hov, hok, hoc, hos, hiv, hik, hic, his]

theorem xstatOk_xstatWord (bent : Bool) : xstatOk (xstatWord outerOpen o innerOpen i) bent =
    ((outerOpen || !innerOpen) &&
      runFieldsOk outerOpen o.recorded.stageKind o.recorded.left o.recorded.stage bent &&
      runFieldsOk innerOpen i.recorded.stageKind i.recorded.left i.recorded.stage bent &&
      (!innerOpen || decide (i.recorded.left ≤ o.recorded.left))) := by
  obtain ⟨⟨hov, hok, hoc, hos⟩, ⟨hiv, hik, hic, his⟩, hr⟩ := xstatWord_fields outerOpen innerOpen o i
  simp only [xstatOk, hov, hok, hoc, hos, hiv, hik, hic, his, hr, BitVec.ofNat_eq_ofNat, beq_self_eq_true,
    Bool.true_and]

end

/-- A run that no other surrounds reopens as it was, and its record is valid in a bent. -/
theorem wordRuns_runsWord_one {o : Run} (ho : o.Fits) :
    wordRuns (runsWord [o]) = [o] ∧ xstatOk (runsWord [o]) true = true := by
  rw [runsWord_one, wordRuns_xstatWord, xstatOk_xstatWord, ho.recorded_eq, ho.fieldsOk]
  exact ⟨rfl, rfl⟩

/-- A run and one inside it reopen as they were, and their record is valid in a bent. -/
theorem wordRuns_runsWord_two {o i : Run} (ho : o.Fits) (hi : i.Fits) (hle : i.left ≤ o.left) :
    wordRuns (runsWord [o, i]) = [o, i] ∧ xstatOk (runsWord [o, i]) true = true := by
  rw [runsWord_two, wordRuns_xstatWord, xstatOk_xstatWord, ho.recorded_eq, hi.recorded_eq, ho.fieldsOk, hi.fieldsOk,
    decide_eq_true hle]
  exact ⟨rfl, rfl⟩

/-! ## TRAP, BKPT and RETT (R443 to R445) -/

section
variable {s : State} {t : Thread}

theorem Issues.exec_trap {a : Name} {c : BitVec 6} (h : Issues s t (.trap a c)) : exec (.trap a c) s =
    .next ((s.begin t (.trap a c)).trap t.uid (448 + c.toNat) ((s.name t a).setWidth 64)) := by
  rw [← s.begin_name t (.trap a c)]
  exact h.issueWord _

theorem Issues.exec_bkpt {b : Name} (h : Issues s t (.bkpt b)) :
    exec (.bkpt b) s = .next ((s.begin t (.bkpt b)).trap t.uid 0x180 (b.setWidth 64)) :=
  h.issueWord _

theorem Issues.exec_rett {a : Name} (h : Issues s t (.rett a)) : exec (.rett a) s =
    .next ((s.begin t (.rett a)).modThread t.uid fun x =>
      x.returnFromHandler (if a = 0 then t.xpc else s.name t a)) := by
  rw [← s.begin_name t (.rett a)]
  exact h.issueWord _

end

/-- Settles O22: each word by its own equation above; the runs by what the fields of `xstat` hold of them. -/
theorem trapWordsAndReturn : Obligations.TrapWordsAndReturn := by
  unfold Obligations.TrapWordsAndReturn
  refine ⟨fun s t a b c => ⟨fun h => h.exec_trap, fun h => h.exec_bkpt⟩, fun s t a h => h.exec_rett,
    fun rs hrs hfit => ?_⟩
  obtain rfl | ⟨o, rfl⟩ | ⟨o, i, rfl, hle⟩ := hrs
  · decide
  · exact wordRuns_runsWord_one (hfit o (by simp))
  · exact wordRuns_runsWord_two (hfit o (by simp)) (hfit i (by simp)) hle

/-! ## MFX (R419 to R422, R446) -/

/-- `xhand`, with its fields at their places (R422). -/
theorem Thread.xhand_eq (t : Thread) : t.xhand = BitVec.ofNat 32 ((if t.busy then 2 ^ 31 else 0) +
    (if t.pendq = [] then 0 else 2 ^ 30) + t.pendq.length % 16 * 2 ^ 16 + t.traps % 2 ^ 16) := by
  have hbusy : (if t.busy then 1 else 0) % 2 ^ 1 * 2 ^ 31 = if t.busy then 2 ^ 31 else 0 := by
    split <;> rfl
  have hpend : (if t.pendq.isEmpty then 0 else 1) % 2 ^ 1 * 2 ^ 30 = if t.pendq = [] then 0 else 2 ^ 30 := by
    simp only [List.isEmpty_iff]
    split <;> rfl
  have hlow : (if t.pendq = [] then 0 else 2 ^ 30) + (t.pendq.length % 2 ^ 4 * 2 ^ 16 + t.traps % 2 ^ 16) < 2 ^ 31 := by
    split <;> omega
  simp only [Thread.xhand, field, BitVec.or_assoc]
  rw [Nat.pow_zero, Nat.mul_one, ofNat_mul_two_pow_or _ (Nat.mod_lt _ (by decide)),
    ofNat_mul_two_pow_or _ (by omega), hpend, ofNat_mul_two_pow_or _ hlow, hbusy]
  congr 1
  omega

/-! ## MTX (R420 to R422, R446) -/

/-- `xcause` takes a value with zeros in its reserved bits (R420). -/
theorem mtxOk_xcause (v : Word) (bent : Bool) : mtxOk 1 v bent = decide (v.toNat / 2 ^ 9 % 2 ^ 20 = 0) :=
  extractLsb'_beq_zero v 9 20

/-- `xhand` takes a value with zeros in its reserved bits (R422). -/
theorem mtxOk_xhand (v : Word) (bent : Bool) : mtxOk 4 v bent = decide (v.toNat / 2 ^ 20 % 2 ^ 10 = 0) :=
  extractLsb'_beq_zero v 20 10

/-- What a write of `xcause` makes of it: `rec` keeps its value (R420). -/
def keepRec (v old : Word) : Word := (v &&& ~~~(1#32 <<< 29)) ||| (old &&& (1#32 <<< 29))

theorem keepRec_getLsbD (v old : Word) (j : Nat) (hj : j < 32) :
    (keepRec v old).getLsbD j = if j = 29 then old.getLsbD j else v.getLsbD j := by
  have hone : (1#32 <<< 29).getLsbD j = decide (j = 29) := by
    revert j
    decide
  rw [keepRec, BitVec.getLsbD_or, BitVec.getLsbD_and, BitVec.getLsbD_and, BitVec.getLsbD_not, hone]
  split
  · next h => simp [h]
  · next h => simp [h, hj]

section
variable {s : State} {t : Thread} {a : BitVec 3} {b : Name}

/-- A valid value is written to its register, and the word completes. -/
theorem Issues.exec_mtx (h : Issues s t (.mtx a b)) (hv : mtxOk a.toNat (s.name t b) (s.inBent t) = true) :
    exec (.mtx a b) s = .next ((s.begin t (.mtx a b)).modThread t.uid fun x =>
      Thread.advance (x.writeTrapState a.toNat (s.name t b) (s.pair t b))) := by
  refine (h.issueWord _).trans ?_
  rw [State.begin_name, State.begin_inBent, State.begin_pair, if_pos hv, State.finish, State.modThread_modThread]
  intro x
  unfold Thread.writeTrapState
  split <;> rfl

/-- Any other value traps. -/
theorem Issues.exec_mtx_of_invalid (h : Issues s t (.mtx a b))
    (hv : mtxOk a.toNat (s.name t b) (s.inBent t) = false) :
    exec (.mtx a b) s = .next ((s.begin t (.mtx a b)).trap t.uid 0x181 ((s.name t b).setWidth 64)) := by
  refine (h.issueWord _).trans ?_
  rw [State.begin_name, State.begin_inBent, if_neg (Bool.eq_false_iff.mp hv)]

end

/-! ## SNAP (R439, R447) -/

section
variable (s : State) (t : Thread) (i : Instr)

@[simp] theorem State.begin_fresh : (s.begin t i).fresh = s.fresh := by
  obtain ⟨ts, ms, as, h⟩ := s.begin_eq t i
  rw [h]

@[simp] theorem State.begin_part? (k : Nat) : (s.begin t i).part? k = s.part? k := by
  obtain ⟨ts, ms, as, h⟩ := s.begin_eq t i
  rw [h]
  rfl

/-- The header of a snapshot is the same once a word has begun. -/
@[simp] theorem State.begin_snapHeader (part : Nat) (job : DWord) (tag : Word) (core tid kind : Nat) :
    (s.begin t i).snapHeader part job tag core tid kind = s.snapHeader part job tag core tid kind := by
  simp only [State.snapHeader, State.begin_clock, State.begin_fresh]

/-- A snapshot is sent while none waits to be collected. -/
theorem State.snapshot_of_free {part : Nat} {p : Partition} (snap : Snap) (hp : s.part? part = some p)
    (hl : p.latched = none) :
    s.snapshot part snap = (s.modPart part fun x => { x with latched := some snap }, true) := by
  simp only [State.snapshot, hp, hl]

/-- A snapshot is dropped while the last one is not collected. -/
theorem State.snapshot_of_latched {part : Nat} {p : Partition} (snap : Snap) (hp : s.part? part = some p)
    (hl : p.latched ≠ none) : s.snapshot part snap = (s, false) := by
  obtain ⟨old, hold⟩ := Option.ne_none_iff_exists'.mp hl
  simp only [State.snapshot, hp, hold]

end

/-- SNAP triggers the snapshot of its member's partition and writes whether it was sent. -/
theorem Issues.exec_snap {s : State} {t : Thread} {m : Member} {d a : Name} (h : Issues s t (.snap d a))
    (hm : s.member? t.member = some m) : exec (.snap d a) s =
      let sent := (s.begin t (.snap d a)).snapshot m.part (s.snapHeader m.part m.job (s.name t a) t.core t.tid 0)
      .next (sent.1.result t d (boolWord sent.2)) := by
  obtain ⟨m', hm', hsame⟩ : ∃ m', (s.begin t (.snap d a)).member? t.member = some m' ∧
      (m'.part, m'.job) = (m.part, m.job) := by
    rw [← Option.map_eq_some_iff, s.begin_member?_map t (.snap d a) t.member (fun x => (x.part, x.job)) fun _ _ => rfl,
      hm]
    rfl
  obtain ⟨hpart, hjob⟩ := Prod.mk.inj hsame
  refine (h.issueWord _).trans ?_
  simp only [hm', hpart, hjob, State.begin_snapHeader, State.begin_name]

/-! ## FLTQ (R316, R448) -/

section
variable (s : State) (t : Thread) (i : Instr)

@[simp] theorem State.begin_slotOf (x : Thread) (n : Name) : (s.begin t i).slotOf x n = s.slotOf x n := by
  simp only [State.slotOf, State.begin_place]

@[simp] theorem State.begin_blockSlots (x : Thread) (n : Name) (k : Nat) :
    (s.begin t i).blockSlots x n k = s.blockSlots x n k := by
  simp only [State.blockSlots, State.begin_slotOf]

end

/-- What FLTQ writes: the latched record while `rec` of `xcause` is 1, else zeros. -/
def Thread.faultWords (t : Thread) : List Word :=
  match t.latched with
  | some p => if t.xcause.getLsbD 29 then p.words else List.replicate 8 0
  | none => List.replicate 8 0

theorem Thread.faultWords_of_rec {t : Thread} {p : Progress} (hp : t.latched = some p)
    (hrec : t.xcause.getLsbD 29 = true) : t.faultWords = p.words := by
  simp only [faultWords, hp, hrec, if_true]

theorem Thread.faultWords_of_no_rec {t : Thread} (h : t.latched = none ∨ t.xcause.getLsbD 29 = false) :
    t.faultWords = [0, 0, 0, 0, 0, 0, 0, 0] := by
  unfold faultWords
  split
  · next p hp =>
    have hrec : t.xcause.getLsbD 29 = false := h.resolve_left (by simp [hp])
    rw [if_neg (by simp only [hrec, Bool.false_eq_true, not_false_iff])]
    rfl
  · rfl

theorem Issues.exec_fltq {s : State} {t : Thread} {d : Name} (h : Issues s t (.fltq d)) : exec (.fltq d) s =
    .next (((s.begin t (.fltq d)).writeAll t.uid (s.blockSlots t d 8) t.faultWords).modThread t.uid
      Thread.advance) := by
  rw [← s.begin_blockSlots t (.fltq d)]
  exact h.issueWord _

/-- Settles O23: each word by its own equation above, with the values of `xhand`, of `rec` and of the record. -/
theorem trapRegisters : Obligations.TrapRegisters := by
  unfold Obligations.TrapRegisters
  refine ⟨fun s t d => ⟨?_, fun h => h.issueWord _⟩, fun s t b => ?_,
    fun s t m p d a h hm hp => ⟨fun hl => ?_, fun hl => ?_⟩,
    fun s t d h => ⟨fun p hp hrec => ?_, fun hno => ?_⟩⟩
  · simp only [List.forall_mem_cons, List.not_mem_nil, false_imp_iff, implies_true, and_true, ← Thread.xhand_eq]
    exact ⟨fun h => h.issueWord _, fun h => h.issueWord _, fun h => h.issueWord _, fun h => h.issueWord _⟩
  · intro v wrote
    refine ⟨fun h => h.exec_mtx rfl, fun h hv => ⟨keepRec v, h.exec_mtx ?_, keepRec_getLsbD v⟩,
      fun h => h.exec_mtx rfl, fun h hv => h.exec_mtx hv, fun h hv => h.exec_mtx ?_, fun a h hv => ?_⟩
    · exact (mtxOk_xcause v _).trans (decide_eq_true hv)
    · exact (mtxOk_xhand v _).trans (decide_eq_true hv)
    · obtain ⟨rfl, hv⟩ | ⟨rfl, hv⟩ | ⟨rfl, hv⟩ := hv
      · exact h.exec_mtx_of_invalid ((mtxOk_xcause v _).trans (decide_eq_false hv))
      · exact h.exec_mtx_of_invalid hv
      · exact h.exec_mtx_of_invalid ((mtxOk_xhand v _).trans (decide_eq_false hv))
  · rw [h.exec_snap hm, State.snapshot_of_free _ _ ((s.begin_part? t _ _).trans hp) hl]
    rfl
  · rw [h.exec_snap hm, State.snapshot_of_latched _ _ ((s.begin_part? t _ _).trans hp) hl]
    rfl
  · rw [h.exec_fltq, Thread.faultWords_of_rec hp hrec]
    rfl
  · rw [h.exec_fltq, Thread.faultWords_of_no_rec hno]

end Sys2Proof.Machine
end
